-- ==== Sys2Proof/Word.lean ====
section
/-! DEFINITION. The byte and word types of the packet block (`00_scope.md` R11: a byte is 8 bits, unsigned, bit 0 the
least significant). -/
namespace Sys2Proof

/-- A byte, R11. -/
abbrev Byte := BitVec 8

/-- A byte list, lowest index first (R12, R113). -/
abbrev Bytes := List Byte

/-- A 16-bit scalar: checksum, packet id, packet sequence control, selector (R63, R103). -/
abbrev Word16 := BitVec 16

end Sys2Proof
end

