-- ==== Sys2Proof/Config.lean ====
section
/-! DEFINITION. What an implementation fixes: the parameters P1 to P19 of `00_scope.md` R10 as one plain-data record, the
names they range over, and the constants without a body that stand for the OPEN parameters before the host has loaded them
(`70_reset_and_hazards.md` R303) and for the one value the spec leaves unstated. -/
namespace Sys2Proof

/-- The names a subordinate service can have: the five of the default `SERVICES` (R43), and any number of others, because
`SERVICES` is any finite set (P4). -/
inductive Service where
  | hk | mem | time | sched | fdir
  | other (n : Nat)
deriving DecidableEq, Repr, Inhabited

/-- The consumers that receive envelopes (R14, R287); there is no `FWD[TIME]`. -/
inductive Consumer where
  | hk | mem | sched | fdir
deriving DecidableEq, Repr, Inhabited

/-- The reassembler instances (R33, R220). -/
inductive Reasm where
  | memDump | schedReport
deriving DecidableEq, Repr, Inhabited

/-- The bit position of a field in a frame: the byte and the bit of that byte where its least significant bit lies. The field
goes on upwards from there, into the next higher byte when it does not end before (R61: the more significant part is at the
higher index; log 11). -/
structure FieldPos where
  byte : Nat
  lo : Fin 8
deriving DecidableEq, Repr, Inhabited

/-- The number of a position among the bits of a frame. -/
def FieldPos.bit (p : FieldPos) : Nat := 8 * p.byte + p.lo.val

/-- The place of the length field: frame byte 146, `LENGTH_BYTE`, a literal (R9, R96; log 11). -/
def lengthPos : FieldPos := ⟨146, 0⟩

/-- P1 `LAYOUT`: the bit position of every header field in frame bytes [139,152) but the length, whose place is the literal
`lengthPos` (R9, R92; log 11). The timestamp word has a position for each of its two bytes. -/
structure Layout where
  version : FieldPos
  pktType : FieldPos
  secHdrFlag : FieldPos
  apid : FieldPos
  seqFlags : FieldPos
  seqCount : FieldPos
  ccsdsFlag : FieldPos
  pktVersion : FieldPos
  ack : FieldPos
  serviceType : FieldPos
  serviceSubType : FieldPos
  srcDstId : FieldPos
  subCounter : FieldPos
  tswHigh : FieldPos
  tswLow : FieldPos
deriving DecidableEq, Repr, Inhabited

/-- Four widths, for the components day, hour, minute and second: P2 `TS_WIDTHS` and P17 `LT_WIDTHS`. -/
structure TimeWidths where
  day : Nat
  hour : Nat
  minute : Nat
  second : Nat
deriving DecidableEq, Repr, Inhabited

/-- P8 `MEM_FIELDS`: payload positions of the memory id and of the address bytes, the most significant first, and the width
of the address in bits (R103, R157). -/
structure MemFields where
  id : Fin 137
  addr : List (Fin 137)
  addrWidth : Nat
deriving DecidableEq, Repr, Inhabited

/-- P9 `TCV_FIELDS`: payload positions of the verified packet id, PSC and destination APID (R103). -/
structure TcvFields where
  pidHigh : Fin 137
  pidLow : Fin 137
  pscHigh : Fin 137
  pscLow : Fin 137
  dest : Fin 137
deriving DecidableEq, Repr, Inhabited

/-- P6 `EXPECTED_APID`: the identity check 5 expects of service types 3, 6, 9 and 69 (R156). -/
structure ExpectedApid where
  hk : Byte
  mem : Byte
  time : Byte
  sched : Byte
deriving DecidableEq, Repr, Inhabited

/-- P10: the four alert codes (R106). -/
structure AlertCodes where
  timeOutOfSync : Byte
  seqPacketRejected : Byte
  tcVerifyFailed : Byte
  eventAlert : Byte
deriving DecidableEq, Repr, Inhabited

/-- One row of P5 `SERVICE_OF_APID`; a byte without a row names no service. -/
structure ApidRow where
  apid : Byte
  service : Service
deriving DecidableEq, Repr, Inhabited

/-- One row of P7 `SUBTYPE_WL` (R155). -/
structure WhitelistRow where
  serviceType : Byte
  subtypes : List Byte
deriving DecidableEq, Repr, Inhabited

/-- One row of P16 `REASM_FEED` (R220). -/
structure FeedRow where
  serviceType : Byte
  serviceSubType : Byte
  reasm : Reasm
deriving DecidableEq, Repr, Inhabited

/-- P19 `BCAST_POLICY`: whether the local time is broadcast on every write of `LT` and on every `BCAST` request. -/
structure BcastPolicy where
  onWrite : Bool
  onRequest : Bool
deriving DecidableEq, Repr, Inhabited

/-- The configuration: parameters P1 to P19 (R10, R30). It is read-only to every operation; the host loads it once before
the first operation (R303). Functions of the spec stand here as tables, so that it is plain data. -/
structure Config where
  /-- P1 -/
  layout : Layout
  /-- P2 -/
  tsWidths : TimeWidths
  /-- P3: the frame byte, 0 or 1, that holds the high checksum byte -/
  cksHiIndex : Fin 2
  /-- P4: any finite set, in the order in which `TICK` visits the cells (R245) -/
  services : List Service
  /-- P5 (OPEN) -/
  serviceOfApid : List ApidRow
  /-- P6 (OPEN) -/
  expectedApid : ExpectedApid
  /-- P7 -/
  subtypeWl : List WhitelistRow
  /-- P8 -/
  memFields : MemFields
  /-- P9 -/
  tcvFields : TcvFields
  /-- P10 (OPEN) -/
  codes : AlertCodes
  /-- P11 (OPEN) -/
  tcAck : BitVec 4
  /-- P12 (OPEN): the operation codes that are two-phase -/
  twoPhase : List Byte
  /-- P13 (OPEN): read by no rule (R280) -/
  tickPeriod : Nat
  /-- P14: the payload indices one fragment contributes, in order -/
  fragSlice : List (Fin 137)
  /-- P15: the value of `type` for telemetry -/
  typeTm : BitVec 1
  /-- P15: the value of `type` for telecommand -/
  typeTc : BitVec 1
  /-- P16 -/
  reasmFeed : List FeedRow
  /-- P17 -/
  ltWidths : TimeWidths
  /-- P18: width in bits of the gate registers `timeout` and `elapsed` -/
  timerWidth : Nat
  /-- P19 -/
  bcastPolicy : BcastPolicy
deriving DecidableEq, Repr, Inhabited

/-- P5 before the host has loaded it: any table, of which the rows into `SERVICES` count (R303; log 1). -/
opaque Config.openServiceOfApid : List ApidRow

/-- P6 before the host has loaded it: any four bytes (R303; log 1). -/
opaque Config.openExpectedApid : ExpectedApid

/-- P10 before the host has loaded it: any four bytes (R303; log 1). -/
opaque Config.openCodes : AlertCodes

/-- P11 before the host has loaded it: any 4-bit value (R303; log 1). -/
opaque Config.openTcAck : BitVec 4

/-- P12 before the host has loaded it: any set of operation codes (R303; log 1). -/
opaque Config.openTwoPhase : List Byte

/-- P13: any period; read by no rule (R10; log 1). -/
opaque Config.openTickPeriod : Nat

/-- Free value (log 9): what a local-time register of width `w` holds after it was given a value `v` that does not fit it, as
`freeTimeField w v` reduced to the register. The spec says only that the default widths are wide enough (D28). -/
opaque Config.freeTimeField : Nat → Nat → Nat

end Sys2Proof
end

