-- ==== Sys2Proof/Syntax.lean ====
section
/-! DEFINITION. The syntax of the block: packets and header records (`10_state.md` R22 to R24), the operations of
`spec/opcode_table.json` as one inductive with one constructor per row, and the requests that carry them
(`30_encoding.md` R90, R107 to R109, R113). -/
namespace Sys2Proof

/-- Day, hour, minute and second: a packet timestamp, or the content of `LT` and `PREV_LT` (R22, R28). The widths are
parameters P2 and P17, so the components are naturals. -/
structure Time where
  day : Nat
  hour : Nat
  minute : Nat
  second : Nat
deriving DecidableEq, Repr, Inhabited

/-- A header record: the operand of `ENCODE`, 18 naturals (R22, R133). It need not be well-formed (R134, R136). -/
structure Header where
  version : Nat
  pktType : Nat
  secHdrFlag : Nat
  apid : Nat
  seqFlags : Nat
  seqCount : Nat
  length : Nat
  ccsdsFlag : Nat
  pktVersion : Nat
  ack : Nat
  serviceType : Nat
  serviceSubType : Nat
  srcDstId : Nat
  subCounter : Nat
  ts : Time
deriving DecidableEq, Repr, Inhabited

/-- A decoded packet, the content of the field registers `PKT.*` (R22, R23, R24): 18 header fields, the payload and the two
checksum values. -/
structure Packet where
  version : BitVec 3
  pktType : BitVec 1
  secHdrFlag : BitVec 1
  apid : Byte
  seqFlags : BitVec 2
  seqCount : Byte
  length : Byte
  ccsdsFlag : BitVec 1
  pktVersion : BitVec 3
  ack : BitVec 4
  serviceType : Byte
  serviceSubType : Byte
  srcDstId : Byte
  subCounter : Byte
  ts : Time
  payload : Bytes
  recvChecksum : Word16
  calcChecksum : Word16
deriving DecidableEq, Repr, Inhabited

/-- The header record of a packet, its fields as naturals. -/
def Packet.header (p : Packet) : Header where
  version := p.version.toNat
  pktType := p.pktType.toNat
  secHdrFlag := p.secHdrFlag.toNat
  apid := p.apid.toNat
  seqFlags := p.seqFlags.toNat
  seqCount := p.seqCount.toNat
  length := p.length.toNat
  ccsdsFlag := p.ccsdsFlag.toNat
  pktVersion := p.pktVersion.toNat
  ack := p.ack.toNat
  serviceType := p.serviceType.toNat
  serviceSubType := p.serviceSubType.toNat
  srcDstId := p.srcDstId.toNat
  subCounter := p.subCounter.toNat
  ts := p.ts

/-- The operations: one constructor per row of `spec/opcode_table.json`, in the table's order. A dispatch operation (format
F152) acts on a packet, `dispatch(Packet)` of R113; a reassembler operation (format SEQ2) has the four arguments of R220, its
`flags` being the constructor; a port operation has the operands of R109. -/
inductive Instr where
  | tcvAccOk (p : Packet)
  | tcvAccFail (p : Packet)
  | tcvExeOk (p : Packet)
  | tcvExeFail (p : Packet)
  | hk10 (p : Packet)
  | hk12 (p : Packet)
  | hk25 (p : Packet)
  | hk26 (p : Packet)
  | evt1 (p : Packet)
  | evt2 (p : Packet)
  | evt3 (p : Packet)
  | evt4 (p : Packet)
  | mem6 (p : Packet)
  | mem10 (p : Packet)
  | time2 (p : Packet)
  | sched4 (p : Packet)
  | fdirFwd (p : Packet)
  | fletcher16 (data : Bytes) (offset count : Nat)
  | encode (h : Header) (payload : Bytes)
  | decode (frame : Bytes)
  | verify (p : Packet)
  | rx (frame : Bytes)
  | tc (sender dest serviceType serviceSubType subCounter : Byte) (numPackets : Nat) (appData : Bytes)
  | ltSet (day hour minute second : Nat)
  | bcast
  | await (sv : Service) (timeout : Nat) (opcode : Byte)
  | tick
  | seqCont (k : Reasm) (c : Byte) (frag : Bytes) (src : Packet)
  | seqFirst (k : Reasm) (c : Byte) (frag : Bytes) (src : Packet)
  | seqLast (k : Reasm) (c : Byte) (frag : Bytes) (src : Packet)
  | seqStandalone (k : Reasm) (c : Byte) (frag : Bytes) (src : Packet)
deriving DecidableEq, Repr

/-- The agents that issue requests (R8, R279). `component` is a component of the block, or a test bench in its place, that
calls one of the block's pure functions by itself (R261 and R262 speak of `DECODE` and `VERIFY` "driven directly"; log 2). -/
inductive Agent where
  | link
  | service (sv : Service)
  | timeBase
  | host
  | component
deriving DecidableEq, Repr, Inhabited

/-- An operand of a request, of the kinds the operand column of R109 and the notation of R113 use. -/
inductive Operand where
  | num (n : Nat)
  | bytes (b : Bytes)
  | service (sv : Service)
  | reasm (k : Reasm)
  | header (h : Header)
  | packet (p : Packet)
deriving DecidableEq, Repr

/-- The encoded form of an operation, one constructor per way of selecting an operation (R90): a frame, which selects by its
service type and subtype bytes (R107) and which reaches the block by an `RX` step only (R174); a port code with operands (R109);
a pair of sequence flags with operands (R108), which a packet inside an `RX` step supplies (R220, R233). -/
inductive Words where
  | frame152 (frame : Bytes)
  | port (code : Byte) (operands : List Operand)
  | seq2 (flags : BitVec 2) (operands : List Operand)
deriving DecidableEq, Repr

/-- A request: an encoded operation and the agent that issues it (R269, R279). -/
structure Request where
  agent : Agent
  words : Words
deriving DecidableEq, Repr

/-- What the environment can do to the block (R8, R269): issue a request, assert the reset (R300), load the configuration
(R303). -/
inductive InputEvent where
  | request (r : Request)
  | reset
  | loadConfig (c : Config)
deriving DecidableEq, Repr

end Sys2Proof
end

