-- ==== Sys2Proof/Machine/Defaults.lean ====
section
/-! DEFINITION. The defaults of the parameters P1 to P19 (`00_scope.md` R10 and the rules its table cites), and the
configuration the block stands in at reset, before the host has loaded one (`70_reset_and_hazards.md` R303). -/
namespace Sys2Proof

/-- P1, the table of R92. -/
def defaultLayout : Layout where
  version := ⟨151, 5⟩
  pktType := ⟨151, 4⟩
  secHdrFlag := ⟨151, 3⟩
  apid := ⟨150, 0⟩
  seqFlags := ⟨149, 6⟩
  seqCount := ⟨148, 0⟩
  ccsdsFlag := ⟨145, 7⟩
  pktVersion := ⟨145, 4⟩
  ack := ⟨145, 0⟩
  serviceType := ⟨144, 0⟩
  serviceSubType := ⟨143, 0⟩
  srcDstId := ⟨142, 0⟩
  subCounter := ⟨141, 0⟩
  tswHigh := ⟨140, 0⟩
  tswLow := ⟨139, 0⟩

/-- P2 (D4). -/
def defaultTsWidths : TimeWidths := ⟨4, 4, 4, 4⟩

/-- P4, in its listed order (R43, D12). -/
def defaultServices : List Service := [.hk, .mem, .time, .sched, .fdir]

/-- P7, the table of R155. -/
def defaultWhitelist : List WhitelistRow :=
  [⟨1, [1, 2, 7, 8]⟩, ⟨3, [10, 12, 25, 26]⟩, ⟨5, [1, 2, 3, 4]⟩, ⟨6, [6, 10]⟩, ⟨9, [2]⟩, ⟨69, [4]⟩]

/-- P8 (D14): id at payload 136, a 32-bit address at 135 to 132. -/
def defaultMemFields : MemFields := ⟨136, [135, 134, 133, 132], 32⟩

/-- P9 (D16): packet id at payload 136 and 135, PSC at 134 and 133, destination APID at 135. -/
def defaultTcvFields : TcvFields := ⟨136, 135, 134, 133, 135⟩

/-- P14 (D21): all 137 payload bytes, ascending. -/
def defaultFragSlice : List (Fin 137) := List.finRange 137

/-- P16 (D21). -/
def defaultFeed : List FeedRow := [⟨6, 6, .memDump⟩, ⟨69, 4, .schedReport⟩]

/-- P17 (D28). -/
def defaultLtWidths : TimeWidths := ⟨16, 8, 8, 8⟩

/-- P5 before the host has loaded it: any table into `SERVICES` (R303; log 1). -/
def openApidRows : List ApidRow := Config.openServiceOfApid.filter fun r => defaultServices.contains r.service

/-- The configuration at reset: every parameter that has a default at its default, every OPEN one unknown (log 1). -/
def bootConfig : Config where
  layout := defaultLayout
  tsWidths := defaultTsWidths
  cksHiIndex := 1
  services := defaultServices
  serviceOfApid := openApidRows
  expectedApid := Config.openExpectedApid
  subtypeWl := defaultWhitelist
  memFields := defaultMemFields
  tcvFields := defaultTcvFields
  codes := Config.openCodes
  tcAck := Config.openTcAck
  twoPhase := Config.openTwoPhase
  tickPeriod := Config.openTickPeriod
  fragSlice := defaultFragSlice
  typeTm := 0
  typeTc := 1
  reasmFeed := defaultFeed
  ltWidths := defaultLtWidths
  timerWidth := 32
  bcastPolicy := ⟨true, true⟩

end Sys2Proof
end

