-- ==== Sys2Proof/Machine/Bits.lean ====
section
/-! DEFINITION. Byte-order helpers: the one convention of `20_memory.md` R61 to R63 for values wider than a byte. -/
namespace Sys2Proof

/-- The more significant byte of a 16-bit value. -/
def hiByte (w : Word16) : Byte := w.extractLsb' 8 8

/-- The less significant byte of a 16-bit value. -/
def loByte (w : Word16) : Byte := w.extractLsb' 0 8

/-- `(hi << 8) | lo`, the formula of R63 for every 16-bit scalar. -/
def word16 (hi lo : Byte) : Word16 := (hi.setWidth 16 <<< 8) ||| lo.setWidth 16

/-- The value of a list of bytes, the most significant first: for four bytes `(b3 << 24) | (b2 << 16) | (b1 << 8) | b0`, the
formula of R63 for the memory address. The bytes do not overlap, so the sums are the spec's bitwise or. -/
def bytesValue (b : Bytes) : Nat := b.foldl (fun acc x => acc * 256 + x.toNat) 0

/-- Byte `i` of a buffer; every rule's index is in range (R60), so the value outside is never used. -/
def byteAt (b : Bytes) (i : Nat) : Byte := b.getD i 0

/-- The `n` bytes at indices 0 to `n - 1`, with zeros where the list is shorter: the copy loops of R101, R175 and R202. -/
def firstBytes (n : Nat) (b : Bytes) : Bytes := (List.range n).map (byteAt b)

end Sys2Proof
end

