-- ==== Sys2Proof/Machine/Frame.lean ====
section
/-! DEFINITION. The packet codec as pure functions (`40_codec.md`): the checksum, the field positions of a frame, the frame
of a header record and payload, and the packet of a frame. -/
namespace Sys2Proof

/-- `FRAME_LEN` (R9). -/
def frameLen : Nat := 152

/-- `PAYLOAD_LEN` (R9). -/
def payloadLen : Nat := 137

/-- One turn of the loop of R131: `sum1 <- (sum1 + b) mod 255`, then `sum2 <- (sum2 + sum1) mod 255`. -/
def fletcherStep (acc : Nat × Nat) (b : Byte) : Nat × Nat :=
  let sum1 := (acc.1 + b.toNat) % 255
  (sum1, (acc.2 + sum1) % 255)

/-- The accumulators after the bytes of a list, both starting at 0 (R131, D6). -/
def fletcherSums (b : Bytes) : Nat × Nat := b.foldl fletcherStep (0, 0)

/-- `FLETCHER16(data, offset, count)`, R131; a range that leaves the data is refused by the operation, not here. -/
def fletcher16 (data : Bytes) (offset count : Nat) : Word16 :=
  let s := fletcherSums ((data.drop offset).take count)
  word16 (BitVec.ofNat 8 s.2) (BitVec.ofNat 8 s.1)

/-- The timestamp word of R99, each component first reduced to its width (R134). The components do not overlap, so the sums
are the spec's bitwise or. -/
def packTime (w : TimeWidths) (t : Time) : Nat :=
  (t.day % 2 ^ w.day) * 2 ^ (w.hour + w.minute + w.second) + (t.hour % 2 ^ w.hour) * 2 ^ (w.minute + w.second)
    + (t.minute % 2 ^ w.minute) * 2 ^ w.second + t.second % 2 ^ w.second

/-- The split of a timestamp word, R99: `day` takes all the bits above the other three. -/
def unpackTime (w : TimeWidths) (tsw : Nat) : Time where
  day := tsw / 2 ^ (w.second + w.minute + w.hour)
  hour := tsw / 2 ^ (w.second + w.minute) % 2 ^ w.hour
  minute := tsw / 2 ^ w.second % 2 ^ w.minute
  second := tsw % 2 ^ w.second

/-- A value to be placed in a field of a frame. -/
structure Slot where
  pos : FieldPos
  width : Nat
  value : Nat
deriving DecidableEq, Repr

/-- The bits of a slot, the value reduced to the field's width (R134), from bit 0 of its first byte on. -/
def slotBits (f : Slot) : Nat := (f.value % 2 ^ f.width) * 2 ^ f.pos.lo.val

/-- A field ends in the byte after the one it begins in. -/
def FieldPos.straddles (p : FieldPos) (w : Nat) : Bool := decide (8 < p.lo.val + w)

/-- Every field of a header record with its place and width (R22, R92). -/
def headerSlots (c : Config) (h : Header) : List Slot :=
  [⟨c.layout.version, 3, h.version⟩, ⟨c.layout.pktType, 1, h.pktType⟩, ⟨c.layout.secHdrFlag, 1, h.secHdrFlag⟩,
   ⟨c.layout.apid, 8, h.apid⟩, ⟨c.layout.seqFlags, 2, h.seqFlags⟩, ⟨c.layout.seqCount, 8, h.seqCount⟩,
   ⟨lengthPos, 8, h.length⟩, ⟨c.layout.ccsdsFlag, 1, h.ccsdsFlag⟩, ⟨c.layout.pktVersion, 3, h.pktVersion⟩,
   ⟨c.layout.ack, 4, h.ack⟩, ⟨c.layout.serviceType, 8, h.serviceType⟩, ⟨c.layout.serviceSubType, 8, h.serviceSubType⟩,
   ⟨c.layout.srcDstId, 8, h.srcDstId⟩, ⟨c.layout.subCounter, 8, h.subCounter⟩,
   ⟨c.layout.tswHigh, 8, packTime c.tsWidths h.ts / 256⟩, ⟨c.layout.tswLow, 8, packTime c.tsWidths h.ts % 256⟩]

/-- What a field puts into byte `j`: nothing, the bits it has there when it begins there, or those that straddle into it. -/
def slotByte (f : Slot) (j : Nat) : Option Byte :=
  if f.pos.byte = j then some (BitVec.ofNat 8 (slotBits f))
  else if f.pos.byte + 1 = j ∧ f.pos.straddles f.width then some (BitVec.ofNat 8 (slotBits f / 256))
  else none

/-- Header byte `j` of a frame: zero, with the bits of every field that lies in it (R102: pad bits are written zero). -/
def headerByte (slots : List Slot) (j : Nat) : Byte :=
  slots.foldr (fun f acc => match slotByte f j with
    | some b => b ||| acc
    | none => acc) 0

/-- Frame bytes [2,152): the payload, then the 13 header bytes (R70, R101). -/
def frameBody (c : Config) (h : Header) (p : Bytes) : Bytes :=
  firstBytes 137 p ++ (List.range 13).map fun j => headerByte (headerSlots c h) (139 + j)

/-- Frame bytes [0,2) for a checksum (R62, R100, P3). -/
def checksumBytes (c : Config) (k : Word16) : Bytes :=
  if c.cksHiIndex = 1 then [loByte k, hiByte k] else [hiByte k, loByte k]

/-- The checksum of a frame: bytes [2,152), `F[2]` first (R140). -/
def frameChecksum (F : Bytes) : Word16 := fletcher16 F 2 150

/-- `ENCODE(h, p)`, R133, for a payload of 137 bytes. -/
def encodeFrame (c : Config) (h : Header) (p : Bytes) : Bytes :=
  let body := frameBody c h p
  checksumBytes c (frameChecksum (0 :: 0 :: body)) ++ body

/-- A field of at most 8 bits read from a frame: `w` bits from its position on, out of its byte, and of the next one when it
straddles (R92). -/
def readField (F : Bytes) (pos : FieldPos) (w : Nat) : BitVec w :=
  if pos.straddles w then (word16 (byteAt F (pos.byte + 1)) (byteAt F pos.byte)).extractLsb' pos.lo.val w
  else (byteAt F pos.byte).extractLsb' pos.lo.val w

/-- The checksum a frame carries (R62, P3). -/
def readChecksum (c : Config) (F : Bytes) : Word16 :=
  if c.cksHiIndex = 1 then word16 (byteAt F 1) (byteAt F 0) else word16 (byteAt F 0) (byteAt F 1)

/-- The fields of a frame of 152 bytes, R135. -/
def packetOfFrame (c : Config) (F : Bytes) : Packet where
  version := readField F c.layout.version 3
  pktType := readField F c.layout.pktType 1
  secHdrFlag := readField F c.layout.secHdrFlag 1
  apid := readField F c.layout.apid 8
  seqFlags := readField F c.layout.seqFlags 2
  seqCount := readField F c.layout.seqCount 8
  length := readField F lengthPos 8
  ccsdsFlag := readField F c.layout.ccsdsFlag 1
  pktVersion := readField F c.layout.pktVersion 3
  ack := readField F c.layout.ack 4
  serviceType := readField F c.layout.serviceType 8
  serviceSubType := readField F c.layout.serviceSubType 8
  srcDstId := readField F c.layout.srcDstId 8
  subCounter := readField F c.layout.subCounter 8
  ts := unpackTime c.tsWidths (word16 (readField F c.layout.tswHigh 8) (readField F c.layout.tswLow 8)).toNat
  payload := firstBytes 137 (F.drop 2)
  recvChecksum := readChecksum c F
  calcChecksum := frameChecksum F

/-- `DECODE(B)`, R135: none is the error `FrameLengthError` (R138). -/
def decodeFrame (c : Config) (B : Bytes) : Option Packet :=
  if B.length = frameLen then some (packetOfFrame c B) else none

/-- The frame that carries a packet: its fields with zero pads, and the checksum it was received with. -/
def frameOfPacket (c : Config) (p : Packet) : Bytes :=
  checksumBytes c p.recvChecksum ++ frameBody c p.header p.payload

end Sys2Proof
end

