-- ==== Sys2Proof/Machine/Operands.lean ====
section
/-! DEFINITION. Operand assembly: the values computed from packet fields (`30_encoding.md` R103, `42_router.md` R176), the
look-ups of the configuration's tables, and the envelope and alert builders (R104 to R106, R175, R178). -/
namespace Sys2Proof

/-- Payload byte `i` of a packet. -/
def payloadAt (p : Packet) (i : Fin 137) : Byte := byteAt p.payload i.val

/-- `packetId(PKT)`, R103 and R176. -/
def packetId (p : Packet) : Word16 :=
  (p.version.setWidth 16 <<< 13) ||| (p.pktType.setWidth 16 <<< 12) ||| (p.secHdrFlag.setWidth 16 <<< 11)
    ||| p.apid.setWidth 16

/-- `psc(PKT)`, R103 and R176. -/
def psc (p : Packet) : Word16 := (p.seqFlags.setWidth 16 <<< 14) ||| p.seqCount.setWidth 16

/-- `declaredLen(PKT)`, R103: computed without wrap. -/
def declaredLen (p : Packet) : Nat := p.length.toNat + 1

/-- `absMinutes(t)`, R103 and R197: an integer that never wraps. -/
def absMinutes (t : Time) : Nat := t.day * 1440 + t.hour * 60 + t.minute

/-- `memId(PKT)`, R103. -/
def memId (c : Config) (p : Packet) : Byte := payloadAt p c.memFields.id

/-- `memAddr(PKT)`, R103, of the width that P8 gives it (R157). -/
def memAddr (c : Config) (p : Packet) : Nat := bytesValue (c.memFields.addr.map (payloadAt p)) % 2 ^ c.memFields.addrWidth

/-- `tcvPacketId(PKT)`, R103. -/
def tcvPacketId (c : Config) (p : Packet) : Word16 :=
  word16 (payloadAt p c.tcvFields.pidHigh) (payloadAt p c.tcvFields.pidLow)

/-- `tcvPsc(PKT)`, R103. -/
def tcvPsc (c : Config) (p : Packet) : Word16 :=
  word16 (payloadAt p c.tcvFields.pscHigh) (payloadAt p c.tcvFields.pscLow)

/-- `tcvDestApid(PKT)`, R103. -/
def tcvDestApid (c : Config) (p : Packet) : Byte := payloadAt p c.tcvFields.dest

/-- `SEL(PKT)`, R107. -/
def selector (p : Packet) : Word16 := word16 p.serviceType p.serviceSubType

/-- `fragment(PKT)`, R221. -/
def fragment (c : Config) (p : Packet) : Bytes := c.fragSlice.map (payloadAt p)

/-- `SERVICE_OF_APID` (P5). -/
def serviceOfApid (c : Config) (a : Byte) : Option Service :=
  (c.serviceOfApid.find? fun r => r.apid = a).map ApidRow.service

/-- `EXPECTED_APID` (P6): none for the service types check 5 does not apply to (R156). -/
def expectedApid (c : Config) (svc : Byte) : Option Byte :=
  if svc = 3 then some c.expectedApid.hk
  else if svc = 6 then some c.expectedApid.mem
  else if svc = 9 then some c.expectedApid.time
  else if svc = 69 then some c.expectedApid.sched
  else none

/-- `SUBTYPE_WL` (P7); a service type without a row admits nothing (R155: check 4 is never reached for it). -/
def subtypesOf (c : Config) (svc : Byte) : List Byte :=
  ((c.subtypeWl.find? fun r => r.serviceType = svc).map WhitelistRow.subtypes).getD []

/-- `TWO_PHASE` (P12). -/
def isTwoPhase (c : Config) (op : Byte) : Bool := c.twoPhase.contains op

/-- `REASM_FEED` (P16): the instance a packet's pair feeds, if any. -/
def reasmOf (c : Config) (p : Packet) : Option Reasm :=
  (c.reasmFeed.find? fun r => r.serviceType = p.serviceType ∧ r.serviceSubType = p.serviceSubType).map FeedRow.reasm

/-- `instanceNumber(k)`, R106 and R226. -/
def reasmNumber : Reasm → Byte
  | .memDump => 0
  | .schedReport => 1

/-- `ENVELOPE(PKT)`, R175 and R105: 147 bytes. -/
def envelope (c : Config) (p : Packet) : Bytes :=
  let memory : Bool := p.serviceType = 6
  firstBytes 137 p.payload ++
    [0, 0, if memory then p.seqCount else 0, if memory then p.seqFlags.setWidth 8 else 0,
     loByte (psc p), hiByte (psc p), loByte (packetId p), hiByte (packetId p),
     if memory then memId c p else 0, p.serviceSubType]

/-- `ALERT(code, aux, src)`, R178 and R106: 147 bytes. -/
def alert (code aux : Byte) : Option Packet → Bytes
  | some p =>
    firstBytes 137 p.payload ++
      [0, 0, 0, 0, loByte (psc p), hiByte (psc p), loByte (packetId p), hiByte (packetId p), aux, code]
  | none => List.replicate 145 0 ++ [aux, code]

/-- The number of frames application data of a length needs, R201: `max(1, ceil(len / 137))`. -/
def framesNeeded (len : Nat) : Nat := max 1 ((len + 136) / 137)

/-- The precondition of `TC`, R201. -/
def tcAdmitted (numPackets len : Nat) : Bool := 1 ≤ numPackets && numPackets ≤ 255 && numPackets == framesNeeded len

/-- The sequence flags of frame `i` of `n`, R203. -/
def tcSeqFlags (n i : Nat) : Nat := if n = 1 then 3 else if i = 0 then 1 else if i = n - 1 then 2 else 0

/-- The payload of frame `i`, R202. -/
def tcPayload (appData : Bytes) (i : Nat) : Bytes := (List.range 137).map fun j => byteAt appData (137 * i + j)

/-- The header of frame `i` of `n`, R203 to R205; `t` is the local time. -/
def tcHeader (c : Config) (t : Time) (sender dest svc sub subCounter : Byte) (n i : Nat) : Header where
  version := 1
  pktType := c.typeTc.toNat
  secHdrFlag := 1
  apid := sender.toNat
  seqFlags := tcSeqFlags n i
  seqCount := i + 1
  length := 151
  ccsdsFlag := 1
  pktVersion := 1
  ack := c.tcAck.toNat
  serviceType := svc.toNat
  serviceSubType := sub.toNat
  srcDstId := dest.toNat
  subCounter := subCounter.toNat
  ts := t

/-- The frames of a `TC` request, in the order of emission, R202 to R206. -/
def tcFrames (c : Config) (t : Time) (sender dest svc sub subCounter : Byte) (n : Nat) (appData : Bytes) : List Bytes :=
  (List.range n).map fun i => encodeFrame c (tcHeader c t sender dest svc sub subCounter n i) (tcPayload appData i)

end Sys2Proof
end

