-- ==== Sys2Proof/Machine/Selectors.lean ====
section
/-! DEFINITION. The selectors of `spec/opcode_table.json`: which dispatch operation a packet's `SEL` selects (R107), which
reassembler operation a fragment's flags select (R108), which port operation a port code selects (R109). -/
namespace Sys2Proof

/-- The dispatch operations, format F152. -/
inductive DispatchOp where
  | tcvAccOk | tcvAccFail | tcvExeOk | tcvExeFail
  | hk10 | hk12 | hk25 | hk26
  | evt1 | evt2 | evt3 | evt4
  | mem6 | mem10 | time2 | sched4 | fdirFwd
deriving DecidableEq, Repr

/-- A row of format F152: it applies when `(SEL & mask) = pattern` (R107). -/
structure SelectorRow where
  pattern : Word16
  mask : Word16
  op : DispatchOp
deriving DecidableEq, Repr

/-- The rows of format F152, R107. -/
def selectorTable : List SelectorRow :=
  [⟨0x0101, 0xFFFF, .tcvAccOk⟩, ⟨0x0102, 0xFFFF, .tcvAccFail⟩, ⟨0x0107, 0xFFFF, .tcvExeOk⟩, ⟨0x0108, 0xFFFF, .tcvExeFail⟩,
   ⟨0x030A, 0xFFFF, .hk10⟩, ⟨0x030C, 0xFFFF, .hk12⟩, ⟨0x0319, 0xFFFF, .hk25⟩, ⟨0x031A, 0xFFFF, .hk26⟩,
   ⟨0x0501, 0xFFFF, .evt1⟩, ⟨0x0502, 0xFFFF, .evt2⟩, ⟨0x0503, 0xFFFF, .evt3⟩, ⟨0x0504, 0xFFFF, .evt4⟩,
   ⟨0x0606, 0xFFFF, .mem6⟩, ⟨0x060A, 0xFFFF, .mem10⟩, ⟨0x0902, 0xFFFF, .time2⟩, ⟨0x4504, 0xFFFF, .sched4⟩,
   ⟨0x4600, 0xFF00, .fdirFwd⟩]

/-- A row applies to a selector. -/
def SelectorRow.applies (r : SelectorRow) (sel : Word16) : Bool := sel &&& r.mask == r.pattern

/-- The dispatch operation a selector names, R107. -/
def dispatchOpOf (sel : Word16) : Option DispatchOp := (selectorTable.find? fun r => r.applies sel).map SelectorRow.op

/-- The operation on a packet. -/
def dispatchInstr : DispatchOp → Packet → Instr
  | .tcvAccOk => .tcvAccOk
  | .tcvAccFail => .tcvAccFail
  | .tcvExeOk => .tcvExeOk
  | .tcvExeFail => .tcvExeFail
  | .hk10 => .hk10
  | .hk12 => .hk12
  | .hk25 => .hk25
  | .hk26 => .hk26
  | .evt1 => .evt1
  | .evt2 => .evt2
  | .evt3 => .evt3
  | .evt4 => .evt4
  | .mem6 => .mem6
  | .mem10 => .mem10
  | .time2 => .time2
  | .sched4 => .sched4
  | .fdirFwd => .fdirFwd

/-- The reassembler operations, format SEQ2. -/
inductive SeqOp where
  | cont | first | last | standalone
deriving DecidableEq, Repr

/-- The operation the sequence flags select, R108: 00, 01, 10, 11. -/
def seqOpOf (flags : BitVec 2) : SeqOp :=
  if flags = 0 then .cont else if flags = 1 then .first else if flags = 2 then .last else .standalone

/-- The reassembler operation with its arguments (R220). -/
def seqInstr : SeqOp → Reasm → Byte → Bytes → Packet → Instr
  | .cont => .seqCont
  | .first => .seqFirst
  | .last => .seqLast
  | .standalone => .seqStandalone

/-- The port operations, format PORT. -/
inductive PortOp where
  | fletcher16 | encode | decode | verify | rx | tc | ltSet | bcast | await | tick
deriving DecidableEq, Repr

/-- The port codes, R109. -/
def portCode : PortOp → Byte
  | .fletcher16 => 0x01
  | .encode => 0x02
  | .decode => 0x03
  | .verify => 0x04
  | .rx => 0x10
  | .tc => 0x11
  | .ltSet => 0x12
  | .bcast => 0x13
  | .await => 0x20
  | .tick => 0x21

/-- Every port operation, in the order of R109. -/
def portOps : List PortOp := [.fletcher16, .encode, .decode, .verify, .rx, .tc, .ltSet, .bcast, .await, .tick]

/-- The port operation a code selects, R109. -/
def portOpOf (code : Byte) : Option PortOp := portOps.find? fun op => portCode op = code

end Sys2Proof
end

