-- ==== Sys2Proof/WellFormed.lean ====
section
/-! DEFINITION. Well-formedness, each check a Bool: header records (`40_codec.md` R136), times against their widths, packets,
operations, and the requirements on a configuration (`70_reset_and_hazards.md` R303). -/
namespace Sys2Proof

/-- Every component of a time is below 2 to the power of its width. -/
def Time.fits (w : TimeWidths) (t : Time) : Bool :=
  decide (t.day < 2 ^ w.day) && decide (t.hour < 2 ^ w.hour) && decide (t.minute < 2 ^ w.minute) &&
    decide (t.second < 2 ^ w.second)

/-- A well-formed header record, R136. -/
def Header.wf (c : Config) (h : Header) : Bool :=
  decide (h.version < 8) && decide (h.pktType < 2) && decide (h.secHdrFlag < 2) && decide (h.apid < 256) &&
    decide (h.seqFlags < 4) && decide (h.seqCount < 256) && decide (h.length < 256) && decide (h.ccsdsFlag < 2) &&
    decide (h.pktVersion < 8) && decide (h.ack < 16) && decide (h.serviceType < 256) && decide (h.serviceSubType < 256) &&
    decide (h.srcDstId < 256) && decide (h.subCounter < 256) && h.ts.fits c.tsWidths

/-- A packet that `DECODE` can produce, as far as its registers show: a payload of 137 bytes and a timestamp within its
widths (R22, R23). -/
def Packet.wf (c : Config) (p : Packet) : Bool := p.payload.length == payloadLen && p.ts.fits c.tsWidths

/-- The packet of a frame whose pad bits are zero: its computed checksum is that of its own fields (R139). -/
def Packet.canonical (c : Config) (p : Packet) : Bool := p.calcChecksum == frameChecksum (frameOfPacket c p)

/-- A packet that stands as the operand of the dispatch operation `op`: it is well-formed and it selects `op` (R107). -/
def Packet.selects (c : Config) (op : DispatchOp) (p : Packet) : Bool :=
  p.wf c && p.canonical c && dispatchOpOf (selector p) == some op

/-- The operands of a reassembler operation: a well-formed packet, and as many fragment bytes as the slice has (R220, R221). -/
def seqOperandsWf (c : Config) (frag : Bytes) (src : Packet) : Bool := src.wf c && frag.length == c.fragSlice.length

/-- A well-formed operation: one whose encoding carries it whole. Conditions under which a well-formed operation is refused
(R131, R66, R201, R248) are its meaning's concern. -/
def Instr.wf (c : Config) : Instr → Bool
  | .tcvAccOk p => p.selects c .tcvAccOk
  | .tcvAccFail p => p.selects c .tcvAccFail
  | .tcvExeOk p => p.selects c .tcvExeOk
  | .tcvExeFail p => p.selects c .tcvExeFail
  | .hk10 p => p.selects c .hk10
  | .hk12 p => p.selects c .hk12
  | .hk25 p => p.selects c .hk25
  | .hk26 p => p.selects c .hk26
  | .evt1 p => p.selects c .evt1
  | .evt2 p => p.selects c .evt2
  | .evt3 p => p.selects c .evt3
  | .evt4 p => p.selects c .evt4
  | .mem6 p => p.selects c .mem6
  | .mem10 p => p.selects c .mem10
  | .time2 p => p.selects c .time2
  | .sched4 p => p.selects c .sched4
  | .fdirFwd p => p.selects c .fdirFwd
  | .fletcher16 _ _ _ => true
  | .encode _ _ => true
  | .decode _ => true
  | .verify p => p.wf c
  | .rx _ => true
  | .tc _ _ _ _ _ _ _ => true
  | .ltSet _ _ _ _ => true
  | .bcast => true
  | .await _ _ _ => true
  | .tick => true
  | .seqCont _ _ frag src => seqOperandsWf c frag src
  | .seqFirst _ _ frag src => seqOperandsWf c frag src
  | .seqLast _ _ frag src => seqOperandsWf c frag src
  | .seqStandalone _ _ frag src => seqOperandsWf c frag src

/-- The places of a layout's fields with their widths (R22, R92). -/
def layoutSpans (l : Layout) : List (FieldPos × Nat) :=
  [(l.version, 3), (l.pktType, 1), (l.secHdrFlag, 1), (l.apid, 8), (l.seqFlags, 2), (l.seqCount, 8), (lengthPos, 8),
   (l.ccsdsFlag, 1), (l.pktVersion, 3), (l.ack, 4), (l.serviceType, 8), (l.serviceSubType, 8), (l.srcDstId, 8),
   (l.subCounter, 8), (l.tswHigh, 8), (l.tswLow, 8)]

/-- Two fields share no bit. -/
def spansDisjoint (a b : FieldPos × Nat) : Bool := decide (a.1.bit + a.2 ≤ b.1.bit) || decide (b.1.bit + b.2 ≤ a.1.bit)

/-- A layout puts every field within frame bytes [139,152) and no two fields share a bit (P1, log 11). -/
def Layout.wf (l : Layout) : Bool :=
  (layoutSpans l).all (fun s => decide (139 ≤ s.1.byte) && decide (s.1.bit + s.2 ≤ 8 * 152)) &&
    decide ((layoutSpans l).Pairwise fun a b => spansDisjoint a b = true)

/-- The widths of a timestamp sum to 16 (P2, R303). -/
def TimeWidths.sum (w : TimeWidths) : Nat := w.day + w.hour + w.minute + w.second

/-- The requirements on a configuration, R303: `TS_WIDTHS` sums to 16, `SERVICE_OF_APID` maps into `SERVICES`, `SUBTYPE_WL`
is defined on the six admitted service types; with a layout that is a layout and a set of services that lists none twice
(log 12). `EXPECTED_APID` is defined on 3, 6, 9 and 69 by its type. -/
def Config.wf (c : Config) : Bool :=
  c.layout.wf && c.tsWidths.sum == 16 && decide c.services.Nodup &&
    c.serviceOfApid.all (fun r => c.services.contains r.service) &&
    [1, 3, 5, 6, 9, 69].all (fun svc => c.subtypeWl.any fun r => r.serviceType == svc)

end Sys2Proof
end

