-- ==== Sys2Proof/Decode.lean ====
section
/-! DEFINITION. The decoder and the encoder of requests (`30_encoding.md` R90, R107 to R110), and the request that stands for
a word of `spec/opcode_table.json`. -/
namespace Sys2Proof

/-- Why a request decodes to no operation. -/
inductive DecodeError where
  /-- a frame of the channel F152 that is not 152 bytes long (R138) -/
  | frameLength (len : Nat)
  /-- a frame whose selector no row of R107 names, so that it stands for no operation of the table -/
  | unknownSelector (sel : Word16)
  /-- a port code that R109 does not list -/
  | unknownPort (code : Byte)
  /-- operands of another number or kind than R109 lists for the port, or a number too wide for its operand -/
  | badOperands (code : Byte)
  /-- a packet operand that no frame decodes to, or a fragment of another length than the slice (R22, R23, R221) -/
  | badPacket
deriving DecidableEq, Repr

/-- An operand that is a byte. -/
def byteOperand (n : Nat) : Option Byte := if n < 256 then some (BitVec.ofNat 8 n) else none

/-- The `TC` request of seven operands (R109). -/
def decodeTc (sender dest svc sub subCounter n : Nat) (appData : Bytes) : Except DecodeError Instr :=
  match byteOperand sender, byteOperand dest, byteOperand svc, byteOperand sub, byteOperand subCounter with
  | some a, some b, some c, some d, some e => .ok (.tc a b c d e n appData)
  | _, _, _, _, _ => .error (.badOperands 0x11)

/-- The `AWAIT` request of three operands (R109). -/
def decodeAwait (sv : Service) (timeout op : Nat) : Except DecodeError Instr :=
  match byteOperand op with
  | some o => .ok (.await sv timeout o)
  | none => .error (.badOperands 0x20)

/-- The operation of a port with its operands, R109. -/
def decodePort (c : Config) (op : PortOp) (operands : List Operand) : Except DecodeError Instr :=
  match op, operands with
  | .fletcher16, [.bytes d, .num o, .num n] => .ok (.fletcher16 d o n)
  | .encode, [.header h, .bytes p] => .ok (.encode h p)
  | .decode, [.bytes b] => .ok (.decode b)
  | .verify, [.packet p] => if p.wf c then .ok (.verify p) else .error .badPacket
  | .rx, [.bytes b] => .ok (.rx b)
  | .tc, [.num s, .num d, .num svc, .num sub, .num k, .num n, .bytes a] => decodeTc s d svc sub k n a
  | .ltSet, [.num d, .num h, .num m, .num s] => .ok (.ltSet d h m s)
  | .bcast, [] => .ok .bcast
  | .await, [.service sv, .num t, .num o] => decodeAwait sv t o
  | .tick, [] => .ok .tick
  | op, _ => .error (.badOperands (portCode op))

/-- The reassembler operation of a fragment, R108 and R220. -/
def decodeSeq (c : Config) (flags : BitVec 2) (operands : List Operand) : Except DecodeError Instr :=
  match operands with
  | [.reasm k, .num n, .bytes frag, .packet src] =>
    match byteOperand n with
    | some count => if seqOperandsWf c frag src then .ok (seqInstr (seqOpOf flags) k count frag src) else .error .badPacket
    | none => .error (.badOperands (flags.setWidth 8))
  | _ => .error (.badOperands (flags.setWidth 8))

/-- The dispatch operation a frame selects, R107. A frame whose pair no row lists selects no operation of the table; what an
`RX` step does with it is `dispatch` in `Machine/Services.lean` (R174). -/
def decodeDispatch (c : Config) (F : Bytes) : Except DecodeError Instr :=
  match decodeFrame c F with
  | none => .error (.frameLength F.length)
  | some p =>
    match dispatchOpOf (selector p) with
    | none => .error (.unknownSelector (selector p))
    | some op => .ok (dispatchInstr op p)

/-- The operation a request carries, under a configuration (the frame's layout is parameter P1). -/
def decode (c : Config) : Words → Except DecodeError Instr
  | .frame152 F => decodeDispatch c F
  | .port code operands =>
    match portOpOf code with
    | none => .error (.unknownPort code)
    | some op => decodePort c op operands
  | .seq2 flags operands => decodeSeq c flags operands

/-- The encoded form of an operation. -/
def encode (c : Config) : Instr → Words
  | .tcvAccOk p => .frame152 (frameOfPacket c p)
  | .tcvAccFail p => .frame152 (frameOfPacket c p)
  | .tcvExeOk p => .frame152 (frameOfPacket c p)
  | .tcvExeFail p => .frame152 (frameOfPacket c p)
  | .hk10 p => .frame152 (frameOfPacket c p)
  | .hk12 p => .frame152 (frameOfPacket c p)
  | .hk25 p => .frame152 (frameOfPacket c p)
  | .hk26 p => .frame152 (frameOfPacket c p)
  | .evt1 p => .frame152 (frameOfPacket c p)
  | .evt2 p => .frame152 (frameOfPacket c p)
  | .evt3 p => .frame152 (frameOfPacket c p)
  | .evt4 p => .frame152 (frameOfPacket c p)
  | .mem6 p => .frame152 (frameOfPacket c p)
  | .mem10 p => .frame152 (frameOfPacket c p)
  | .time2 p => .frame152 (frameOfPacket c p)
  | .sched4 p => .frame152 (frameOfPacket c p)
  | .fdirFwd p => .frame152 (frameOfPacket c p)
  | .fletcher16 d o n => .port 0x01 [.bytes d, .num o, .num n]
  | .encode h p => .port 0x02 [.header h, .bytes p]
  | .decode b => .port 0x03 [.bytes b]
  | .verify p => .port 0x04 [.packet p]
  | .rx b => .port 0x10 [.bytes b]
  | .tc s d svc sub k n a =>
    .port 0x11 [.num s.toNat, .num d.toNat, .num svc.toNat, .num sub.toNat, .num k.toNat, .num n, .bytes a]
  | .ltSet d h m s => .port 0x12 [.num d, .num h, .num m, .num s]
  | .bcast => .port 0x13 []
  | .await sv t o => .port 0x20 [.service sv, .num t, .num o.toNat]
  | .tick => .port 0x21 []
  | .seqCont k n frag src => .seq2 0b00 [.reasm k, .num n.toNat, .bytes frag, .packet src]
  | .seqFirst k n frag src => .seq2 0b01 [.reasm k, .num n.toNat, .bytes frag, .packet src]
  | .seqLast k n frag src => .seq2 0b10 [.reasm k, .num n.toNat, .bytes frag, .packet src]
  | .seqStandalone k n frag src => .seq2 0b11 [.reasm k, .num n.toNat, .bytes frag, .packet src]

/-- The agent whose request an operation is, R279: only the link issues `RX`, only service `s` issues `AWAIT(s, ...)`, any
service issues `TC`, only the time base issues `TICK`, only the host issues `LT_SET` and `BCAST`. A service is a member of
`SERVICES` (R43); that a name left out of it may not request `TC` is log 15. The pure functions are called by a component
(R261, R262; log 2). Nobody requests a dispatch operation or a reassembler operation by itself: they are reached only inside an
`RX` step, after `Ok` (R174, R233). -/
def permits (c : Config) (a : Agent) : Instr → Bool
  | .rx _ => a == .link
  | .tc _ _ _ _ _ _ _ => c.services.any fun sv => a == .service sv
  | .ltSet _ _ _ _ => a == .host
  | .bcast => a == .host
  | .await s _ _ => a == .service s
  | .tick => a == .timeBase
  | .fletcher16 _ _ _ => a == .component
  | .encode _ _ => a == .component
  | .decode _ => a == .component
  | .verify _ => a == .component
  | .tcvAccOk _ => false
  | .tcvAccFail _ => false
  | .tcvExeOk _ => false
  | .tcvExeFail _ => false
  | .hk10 _ => false
  | .hk12 _ => false
  | .hk25 _ => false
  | .hk26 _ => false
  | .evt1 _ => false
  | .evt2 _ => false
  | .evt3 _ => false
  | .evt4 _ => false
  | .mem6 _ => false
  | .mem10 _ => false
  | .time2 _ => false
  | .sched4 _ => false
  | .fdirFwd _ => false
  | .seqCont _ _ _ _ => false
  | .seqFirst _ _ _ _ => false
  | .seqLast _ _ _ _ => false
  | .seqStandalone _ _ _ _ => false

/-- A packet of all zeros (the packet of 152 zero bytes, V21). -/
def zeroPacket : Packet where
  version := 0
  pktType := 0
  secHdrFlag := 0
  apid := 0
  seqFlags := 0
  seqCount := 0
  length := 0
  ccsdsFlag := 0
  pktVersion := 0
  ack := 0
  serviceType := 0
  serviceSubType := 0
  srcDstId := 0
  subCounter := 0
  ts := ⟨0, 0, 0, 0⟩
  payload := List.replicate 137 0
  recvChecksum := 0
  calcChecksum := 0

/-- A header record of all zeros. -/
def zeroHeader : Header := zeroPacket.header

/-- The service that requests the operations of an opcode-table word: the first of `SERVICES` (log 3). -/
def tableService (c : Config) : Service := c.services.headD .hk

/-- The operands of a port operation of which only the port code is given: numbers and bytes zero, a frame and a payload of
zeros, no data, and one frame, the least number a `TC` may ask for (R201). The spec gives operands no bits (log 3). -/
def plainOperands (c : Config) : PortOp → List Operand
  | .fletcher16 => [.bytes [], .num 0, .num 0]
  | .encode => [.header zeroHeader, .bytes (List.replicate 137 0)]
  | .decode => [.bytes (List.replicate 152 0)]
  | .verify => [.packet zeroPacket]
  | .rx => [.bytes (List.replicate 152 0)]
  | .tc => [.num 0, .num 0, .num 0, .num 0, .num 0, .num 1, .bytes []]
  | .ltSet => [.num 0, .num 0, .num 0, .num 0]
  | .bcast => []
  | .await => [.service (tableService c), .num 0, .num 0]
  | .tick => []

/-- The agent that issues the operation of a port. -/
def portAgent (c : Config) : PortOp → Agent
  | .rx => .link
  | .tc => .service (tableService c)
  | .ltSet => .host
  | .bcast => .host
  | .await => .service (tableService c)
  | .tick => .timeBase
  | .fletcher16 => .component
  | .encode => .component
  | .decode => .component
  | .verify => .component

/-- The header of `TM{serviceType, serviceSubType, apid, seqFlags}`, R114, with the sender that check 5 expects. -/
def tmHeader (c : Config) (svc sub : Byte) (flags : Nat) : Header :=
  { zeroHeader with
    version := 1
    secHdrFlag := 1
    apid := ((expectedApid c svc).getD 0).toNat
    seqFlags := flags
    length := 151
    ccsdsFlag := 1
    pktVersion := 1
    serviceType := svc.toNat
    serviceSubType := sub.toNat }

/-- The frame of `RX TM{...}`, R114, with a payload of zeros. -/
def tmFrame (c : Config) (svc sub : Byte) (flags : Nat) : Bytes :=
  encodeFrame c (tmHeader c svc sub flags) (List.replicate 137 0)

/-- The frame that brings a fragment with given sequence flags to `MEMDUMP`, R114: a memory dump report, pair (6, 6). -/
def fragmentFrame (c : Config) (flags : BitVec 2) : Bytes := tmFrame c 6 6 flags.toNat

/-- What the encoded form of an operation is for a word of `spec/opcode_table.json`: 16 bits are a selector of format F152 and
stand for a frame with that selector, 8 bits a port code of format PORT, fewer the sequence flags of format SEQ2. Read as whole
bytes, formats SEQ2 and PORT collide: an 8-bit 0, which is no port code, is read as the flags 00, and 8-bit 1, 2 and 3 are read
as port codes (log 3). -/
def wordsOfTableWord (c : Config) (nbits w : Nat) : Words :=
  if nbits = 16 then .frame152 (tmFrame c (BitVec.ofNat 8 (w / 256)) (BitVec.ofNat 8 w) 3)
  else if nbits = 8 ∧ w ≠ 0 then
    .port (BitVec.ofNat 8 w) (((portOpOf (BitVec.ofNat 8 w)).map (plainOperands c)).getD [])
  else
    let p := packetOfFrame c (fragmentFrame c (BitVec.ofNat 2 w))
    .seq2 (BitVec.ofNat 2 w) [.reasm .memDump, .num 0, .bytes (fragment c p), .packet p]

/-- The request that makes the block perform the operation of a word of `spec/opcode_table.json`: a port request of the agent
that may issue it, or the delivery of the frame by the link, because a dispatch operation and a reassembler operation happen
only inside an `RX` step (R174, R233). -/
def requestOfTableWord (c : Config) (nbits w : Nat) : Request :=
  match wordsOfTableWord c nbits w with
  | .frame152 F => ⟨.link, .frame152 F⟩
  | .port code operands => ⟨((portOpOf code).map (portAgent c)).getD .component, .port code operands⟩
  | .seq2 flags _ => ⟨.link, .frame152 (fragmentFrame c flags)⟩

/-- The operation the decoder reads from a word of `spec/opcode_table.json`; none where it refuses. -/
def decodeTableWord (nbits w : Nat) : Option Instr :=
  if nbits ≤ 8 ∨ nbits = 16 then (decode bootConfig (wordsOfTableWord bootConfig nbits w)).toOption else none

end Sys2Proof
end

