-- ==== Sys2Proof/Machine/State.lean ====
section
/-! DEFINITION. The state of the block as plain data (`10_state.md` R20 to R43), the outcomes a step can stop with, and the
state after reset (R40, R301). -/
namespace Sys2Proof.Machine

/-- A bank: one value per member of `SERVICES`, in its order (R43). -/
structure PerService (α : Type) where
  entries : List (Service × α)
deriving DecidableEq, Repr

/-- The bank of a set of services with one value everywhere. -/
def PerService.fresh {α : Type} (l : List Service) (v : α) : PerService α := ⟨l.map fun s => (s, v)⟩

/-- The services a bank has an entry for. -/
def PerService.services {α : Type} (b : PerService α) : List Service := b.entries.map Prod.fst

/-- The entry of a service in a list of entries. A service without one has the reset value, `default`; no operation touches
it (R43, R303). -/
def entryOf {α : Type} [Inhabited α] (s : Service) : List (Service × α) → α
  | [] => default
  | e :: l => if e.1 = s then e.2 else entryOf s l

/-- A list of entries with the entry of one service replaced. -/
def setEntry {α : Type} (s : Service) (v : α) : List (Service × α) → List (Service × α)
  | [] => [(s, v)]
  | e :: l => if e.1 = s then (s, v) :: l else e :: setEntry s v l

/-- The entry of a service. -/
def PerService.get {α : Type} [Inhabited α] (b : PerService α) (s : Service) : α := entryOf s b.entries

/-- The bank with one service's entry replaced. -/
def PerService.set {α : Type} (b : PerService α) (s : Service) (v : α) : PerService α := ⟨setEntry s v b.entries⟩

/-- One value per consumer (R287). -/
structure PerConsumer (α : Type) where
  hk : α
  mem : α
  sched : α
  fdir : α
deriving DecidableEq, Repr

/-- The entry of a consumer. -/
def PerConsumer.get {α : Type} (b : PerConsumer α) : Consumer → α
  | .hk => b.hk
  | .mem => b.mem
  | .sched => b.sched
  | .fdir => b.fdir

/-- The bank with one consumer's entry replaced. -/
def PerConsumer.set {α : Type} (b : PerConsumer α) (c : Consumer) (v : α) : PerConsumer α :=
  match c with
  | .hk => { b with hk := v }
  | .mem => { b with mem := v }
  | .sched => { b with sched := v }
  | .fdir => { b with fdir := v }

/-- One value per reassembler instance (R33). -/
structure PerReasm (α : Type) where
  memDump : α
  schedReport : α
deriving DecidableEq, Repr

/-- The entry of an instance. -/
def PerReasm.get {α : Type} (b : PerReasm α) : Reasm → α
  | .memDump => b.memDump
  | .schedReport => b.schedReport

/-- The bank with one instance's entry replaced. -/
def PerReasm.set {α : Type} (b : PerReasm α) (k : Reasm) (v : α) : PerReasm α :=
  match k with
  | .memDump => { b with memDump := v }
  | .schedReport => { b with schedReport := v }

/-- The errors that stand on the `LOG` port by name (R260, R267, R286): labels 0 to 7 and 11, and the unreachable
`Undispatched` of R199. Labels 8 to 10 are no `LOG` errors of this kind (R263, R264, R265). -/
inductive ErrorName where
  | frameLengthError
  | lengthMismatch
  | checksumMismatch
  | unknownServiceType
  | unknownSubType
  | invalidApid
  | invalidMemoryAddress
  | versionMismatch
  | unknownVerifyDestination
  | undispatched
deriving DecidableEq, Repr

/-- The result of `VERIFY` (R150). -/
inductive Verdict where
  | ok
  | reject (reason : ErrorName)
deriving DecidableEq, Repr

/-- The events of the `LOG` port, R286. -/
inductive LogEvent where
  /-- `LOG(VerifyOk)` -/
  | verifyOk
  /-- `LOG(Error, reason)` -/
  | error (reason : ErrorName)
  /-- `LOG(Event, TcVerifyFailure, subtype)` -/
  | tcVerifyFailure (subtype : Byte)
  /-- `LOG(Event, EventReport, PKT)` -/
  | eventReport (p : Packet)
  /-- `LOG(Event, VerifySuccess, opcode)` -/
  | verifySuccess (opcode : Byte)
  /-- `LOG(Error, VerificationTimeout, opcode)` -/
  | verificationTimeout (opcode : Byte)
deriving DecidableEq, Repr

/-- The value of a `RESULT[s]` event, R289. -/
inductive GateResult where
  | ok
  | fail
deriving DecidableEq, Repr

/-- What a pure function called by itself returned (R15 `return v`, R261, R262; the model's own, log 4). -/
inductive ReturnValue where
  | checksum (w : Word16)
  | frame (F : Bytes)
  | packet (p : Packet)
  /-- `FrameLengthError(len(B))` as the result of `DECODE` (R138, R261) -/
  | frameLengthError (len : Nat)
  | verdict (v : Verdict)
deriving DecidableEq, Repr

/-- An entry of the verification bank, R31. -/
structure TcvState where
  acceptReceived : Bool
  executeReceived : Bool
  packetID : Word16
  PSC : Word16
deriving DecidableEq, Repr, Inhabited

/-- The phase of a reassembly session, R33. -/
inductive Phase where
  | idle
  | collecting
  | done
deriving DecidableEq, Repr

/-- A reassembly session, R33. -/
structure ReasmState where
  phase : Phase
  lastSequenceCount : Byte
  sequenceOffset : Byte
  expectedTotalPackets : Byte
  buffer : Bytes
deriving DecidableEq, Repr

/-- A gate cell, R35. `timeout` and `elapsed` count `TICK`s in registers of width P18. -/
structure GateCell where
  waiting : Bool
  timeout : Nat
  elapsed : Nat
  opcode : Byte
  twoPhase : Bool
deriving DecidableEq, Repr, Inhabited

/-- The output ports, each the sequence of events emitted so far, oldest first (R14, R38, R284 to R290). The order between
ports is not kept, because it is not observable (R75). -/
structure Ports where
  archive : List Bytes
  log : List LogEvent
  fwd : PerConsumer (List Bytes)
  linkTx : List Bytes
  sink : PerReasm (List Bytes)
  result : PerService (List GateResult)
  bcast : PerService (List Time)
deriving DecidableEq, Repr

/-- The state of the block. -/
structure State where
  /-- the configuration, P1 to P19 (R30); no operation changes it -/
  cfg : Config
  /-- `FRAME`, the frame latch (R21) -/
  frame : Bytes
  /-- `PKT.*`, the packet field registers (R22 to R24) -/
  pkt : Packet
  /-- `LT`, the local absolute time (R28) -/
  lt : Time
  /-- `PREV_LT` (R29) -/
  prevLt : Time
  /-- `PREV_VALID` (R29) -/
  prevValid : Bool
  /-- `TCV[s]`, the verification bank (R31) -/
  tcv : PerService TcvState
  /-- `RS[k]`, the reassembly bank (R33) -/
  rs : PerReasm ReasmState
  /-- `G[s]`, the gate bank (R35) -/
  gate : PerService GateCell
  /-- the output ports (R38) -/
  out : Ports
  /-- the model's own: what directly called pure functions returned, oldest first (log 4) -/
  returned : List ReturnValue
  /-- the model's own: the configuration is fixed, because it has been loaded since reset or a request has happened (R279, R303;
  log 12) -/
  booted : Bool
  /-- the model's own: the input events the environment is going to cause, the next one first (R73, R269, log 2) -/
  inbox : List InputEvent
deriving DecidableEq, Repr

/-- The reasons a step can stop with a fault. There is none: no behaviour of the block is a fault
(`93_implementation_defined.md`, after U18), every error it detects has handling that ends in a next state (R260, R276), and
no buffer access can fail (R335). -/
inductive Fault
deriving DecidableEq, Repr

/-- The reasons a step can stop because the spec gives the request no meaning ("refused", R17). Each is safe: the model stops
where the spec asserts nothing. -/
inductive Refusal where
  /-- raised by `exec` for an operation without a meaning; no arm of it does -/
  | notModelled (mnemonic : String)
  /-- raised by the fetch for a request that decodes to no operation (R110, R113) -/
  | undecodable (e : DecodeError)
  /-- raised by the fetch for a request of an agent that may not issue it (R279, U11), also for a reassembler operation, which no
  agent requests (R233) -/
  | wrongAgent
  /-- raised by `FLETCHER16` when `offset + count > len(data)` (R131, U9) -/
  | rangeOutsideData
  /-- raised by `ENCODE` on a payload that is not 137 bytes long (R66, U8) -/
  | payloadNot137
  /-- raised by `TC` outside its precondition (R201, U10) -/
  | tcNotAdmitted
  /-- raised by `AWAIT` for a service that is not a member of `SERVICES` (R242) -/
  | notAService
  /-- raised by `AWAIT` for a timeout that does not fit `TIMER_WIDTH` (R242) -/
  | timeoutTooWide
  /-- raised by a second `AWAIT` before the first resolves (R248, U3) -/
  | awaitWhileWaiting
  /-- raised by a second configuration load, and by one after the first operation (R279, R303; log 12) -/
  | configFixed
  /-- raised by a configuration load whose values break the requirements of R303 (log 12) -/
  | configIllFormed
deriving DecidableEq, Repr

/-- Reset value of a verification entry, R40. -/
def resetTcv : TcvState := ⟨false, false, 0, 0⟩

/-- Reset value of a reassembly session, R40. -/
def resetReasm : ReasmState := ⟨.idle, 0, 0, 0, []⟩

/-- Reset value of a gate cell, R40. -/
def resetGate : GateCell := ⟨false, 0, 0, 0, false⟩

/-- Reset value of the output ports of a set of services: every one empty, R40. -/
def resetPorts (l : List Service) : Ports where
  archive := []
  log := []
  fwd := ⟨[], [], [], []⟩
  linkTx := []
  sink := ⟨[], []⟩
  result := .fresh l []
  bcast := .fresh l []

/-- The state after reset under a configuration, R40 and R301: the banks have an entry for every member of its `SERVICES`
(R43). `FRAME` and `PKT` are unspecified there; the model names zeros (log 5). No input event is scheduled. -/
def State.resetWith (c : Config) : State where
  cfg := c
  frame := List.replicate 152 0
  pkt := zeroPacket
  lt := ⟨0, 0, 0, 0⟩
  prevLt := ⟨0, 0, 0, 0⟩
  prevValid := false
  tcv := .fresh c.services resetTcv
  rs := ⟨resetReasm, resetReasm⟩
  gate := .fresh c.services resetGate
  out := resetPorts c.services
  returned := []
  booted := false
  inbox := []

/-- The state after reset: the configuration is the one before the host's load (log 1). -/
def State.reset : State := State.resetWith bootConfig

end Sys2Proof.Machine
end

