-- ==== Sys2Proof/Machine/Ops.lean ====
section
/-! DEFINITION. The named operations over the state: emission on each port (`00_scope.md` R14), register and buffer writes,
one byte of a buffer read and written (R16, R37), the two transitions that end a wait, and the handling of an error as ONE
shared operation (`60_exceptions.md` R260 to R278). -/
namespace Sys2Proof.Machine

/-- The outcome type of the block. -/
abbrev Result := Host.Outcome State Fault Refusal

/-- `emit ARCHIVE(B)`, R285. -/
def emitArchive (b : Bytes) (s : State) : State := { s with out := { s.out with archive := s.out.archive ++ [b] } }

/-- `emit LOG(e)`, R286. -/
def emitLog (e : LogEvent) (s : State) : State := { s with out := { s.out with log := s.out.log ++ [e] } }

/-- `emit FWD[c](E)`, R177 and R287. -/
def emitFwd (c : Consumer) (E : Bytes) (s : State) : State :=
  { s with out := { s.out with fwd := s.out.fwd.set c (s.out.fwd.get c ++ [E]) } }

/-- `emit LINK_TX(F)` for each frame of a list in order, R206 and R284. -/
def emitLinkTx (Fs : List Bytes) (s : State) : State := { s with out := { s.out with linkTx := s.out.linkTx ++ Fs } }

/-- `emit SINK[k](b)`, R288. -/
def emitSink (k : Reasm) (b : Bytes) (s : State) : State :=
  { s with out := { s.out with sink := s.out.sink.set k (s.out.sink.get k ++ [b]) } }

/-- `emit RESULT[s](r)`, R289. -/
def emitResult (sv : Service) (r : GateResult) (s : State) : State :=
  { s with out := { s.out with result := s.out.result.set sv (s.out.result.get sv ++ [r]) } }

/-- `emit BCAST[s](t)`, R290. -/
def emitBcast (t : Time) (s : State) (sv : Service) : State :=
  { s with out := { s.out with bcast := s.out.bcast.set sv (s.out.bcast.get sv ++ [t]) } }

/-- `for every s in SERVICES: emit BCAST[s](LT)`, R208. -/
def emitBcastAll (s : State) : State := s.cfg.services.foldl (emitBcast s.lt) s

/-- The broadcast that goes with a write of `LT`, R196 and R207 (P19). -/
def broadcastWrite (s : State) : State := if s.cfg.bcastPolicy.onWrite then emitBcastAll s else s

/-- `return v` of a pure function called by itself (R15; log 4). -/
def emitReturn (v : ReturnValue) (s : State) : State := { s with returned := s.returned ++ [v] }

/-- `FRAME <- B`, R21. -/
def loadFrame (b : Bytes) (s : State) : State := { s with frame := b }

/-- `PKT <- p`, all registers together, R25. -/
def loadPkt (p : Packet) (s : State) : State := { s with pkt := p }

/-- `LT <- t`. -/
def setLt (t : Time) (s : State) : State := { s with lt := t }

/-- `PREV_LT <- LT ; PREV_VALID <- 1`, R196. -/
def retainLt (s : State) : State := { s with prevLt := s.lt, prevValid := true }

/-- `TCV[s] <- t`. -/
def setTcv (sv : Service) (t : TcvState) (s : State) : State := { s with tcv := s.tcv.set sv t }

/-- `RS[k] <- r`. -/
def setRs (k : Reasm) (r : ReasmState) (s : State) : State := { s with rs := s.rs.set k r }

/-- `G[s] <- g`. -/
def setGate (sv : Service) (g : GateCell) (s : State) : State := { s with gate := s.gate.set sv g }

/-- The byte-addressed spaces, R37. -/
inductive Space where
  | frame
  | payload
  | env
  | rbuf (k : Reasm)
deriving DecidableEq, Repr

/-- The four spaces as they stand inside a step: `FRAME`, `PAYLOAD` and `RBUF[k]` are state, and `ENV` holds the envelope that
the step is building; it ends with the step (R41; log 17). -/
structure Spaces where
  state : State
  env : Bytes
deriving DecidableEq, Repr

/-- The spaces between two steps: no envelope exists (R41). -/
def State.spaces (s : State) : Spaces := ⟨s, []⟩

/-- The bytes of a space. -/
def spaceBytes (m : Spaces) : Space → Bytes
  | .frame => m.state.frame
  | .payload => m.state.pkt.payload
  | .env => m.env
  | .rbuf k => (m.state.rs.get k).buffer

/-- `MemRead(space, i, 1)`, which is `F[i]`, `P[i]`, `E[i]` (R16); none outside the range of the space, where there is nothing
(R37, R60). -/
def readByte (m : Spaces) (sp : Space) (i : Nat) : Option Byte := (spaceBytes m sp)[i]?

/-- `MemRead(space, addr, n)`, R16: the bytes in ascending index order; none when the range leaves the space. -/
def memRead (m : Spaces) (sp : Space) (addr n : Nat) : Option Bytes :=
  if addr + n ≤ (spaceBytes m sp).length then some (((spaceBytes m sp).drop addr).take n) else none

/-- A byte list with the list `v` written to ascending indices from `addr`. -/
def overwrite (b : Bytes) (addr : Nat) (v : Bytes) : Bytes := b.take addr ++ v ++ b.drop (addr + v.length)

/-- `MemWrite(space, addr, len(v), v)`, R16: none when the range leaves the space. -/
def memWrite (m : Spaces) (sp : Space) (addr : Nat) (v : Bytes) : Option Spaces :=
  if addr + v.length ≤ (spaceBytes m sp).length then
    let b := overwrite (spaceBytes m sp) addr v
    match sp with
    | .frame => some { m with state := loadFrame b m.state }
    | .payload => some { m with state := loadPkt { m.state.pkt with payload := b } m.state }
    | .env => some { m with env := b }
    | .rbuf k => some { m with state := setRs k { m.state.rs.get k with buffer := b } m.state }
  else none

/-- The canonical form of the buffers: `FRAME` has 152 bytes, `PAYLOAD` 137 and `RBUF[k]` at most 256 fragments (R34, R37).
The buffers are dense lists of bytes, so equal contents are equal data. -/
def Memory.wf (s : State) : Bool :=
  s.frame.length == 152 && s.pkt.payload.length == 137 &&
    [Reasm.memDump, Reasm.schedReport].all fun k => decide ((s.rs.get k).buffer.length ≤ 256 * s.cfg.fragSlice.length)

/-- A value in a register of width `w`: itself when it fits, and a free value when it does not (R28, D28; log 9). -/
def fitTime (w v : Nat) : Nat := if v < 2 ^ w then v else Config.freeTimeField w v % 2 ^ w

/-- A timestamp as it is adopted into `LT`, R196. -/
def adoptedTime (w : TimeWidths) (t : Time) : Time :=
  ⟨fitTime w.day t.day, fitTime w.hour t.hour, fitTime w.minute t.minute, fitTime w.second t.second⟩

/-- The alert action `emit FWD[FDIR](ALERT(code, aux, src))`, R178. -/
def emitAlert (code aux : Byte) (src : Option Packet) (s : State) : State := emitFwd .fdir (alert code aux src) s

/-- `success(s)`, R244. -/
def gateSuccess (sv : Service) (s : State) : State :=
  emitResult sv .ok <| emitLog (.verifySuccess (s.gate.get sv).opcode) <|
    setGate sv { s.gate.get sv with waiting := false } <|
      setTcv sv { s.tcv.get sv with acceptReceived := false, executeReceived := false } s

/-- The errors of R260 that an operation can raise in mid-step, with what their handling needs. -/
inductive Raised where
  /-- labels 0 to 7 and 11, and `Undispatched`: the reason -/
  | logged (reason : ErrorName)
  /-- label 8, `SequencePacketRejected`: the instance and the offending packet -/
  | sequence (k : Reasm) (src : Packet)
  /-- label 9, `VerificationTimeout`: the service -/
  | timeout (sv : Service)
  /-- label 10, `TimeOutOfSync`: the time packet -/
  | desync (src : Packet)
deriving DecidableEq, Repr

/-- Raising an error: the entry actions of R261 to R265 in the detecting step (R274). Nothing is saved and control goes
nowhere; there is no return (R276), the next input event is taken as usual. -/
def raiseError : Raised → State → State
  | .logged reason, s => emitLog (.error reason) s
  | .sequence k src, s =>
    emitAlert s.cfg.codes.seqPacketRejected (reasmNumber k) (some src) <|
      setRs k { s.rs.get k with phase := .idle, lastSequenceCount := 0, sequenceOffset := 0, buffer := [] } s
  | .timeout sv, s =>
    emitResult sv .fail <| emitAlert (s.gate.get sv).opcode 0 none <|
      emitLog (.verificationTimeout (s.gate.get sv).opcode) <| setGate sv { s.gate.get sv with waiting := false } s
  | .desync src, s =>
    broadcastWrite <| emitAlert s.cfg.codes.timeOutOfSync 0 (some src) <|
      setLt (adoptedTime s.cfg.ltWidths src.ts) (retainLt s)

/-- `timedout(s)`, R246. -/
def gateTimedOut (sv : Service) (s : State) : State := raiseError (.timeout sv) s

/-- The numeric label of an error name, R267; `Undispatched` has none. -/
def errorLabel : ErrorName → Option Nat
  | .frameLengthError => some 0
  | .lengthMismatch => some 1
  | .checksumMismatch => some 2
  | .unknownServiceType => some 3
  | .unknownSubType => some 4
  | .invalidApid => some 5
  | .invalidMemoryAddress => some 6
  | .versionMismatch => some 7
  | .unknownVerifyDestination => some 11
  | .undispatched => none

/-- The reset asserted by the environment, R300: all state takes its reset value at once and nothing is emitted. The
configuration and the environment's schedule are not state of the block (R30, R39; log 13). -/
def assertReset (s : State) : State := { State.resetWith s.cfg with inbox := s.inbox }

/-- The configuration is loaded: the banks get an entry, at its reset value, for every member of the new `SERVICES` (R43, R282),
and the configuration is fixed from now on (R303). -/
def installConfig (c : Config) (s : State) : State :=
  { s with
    cfg := c
    tcv := .fresh c.services resetTcv
    gate := .fresh c.services resetGate
    out := { s.out with result := .fresh c.services [], bcast := .fresh c.services [] }
    booted := true }

/-- The configuration load by the host, R303: once (R279), only before the first operation, and only of values that meet the
requirements; every other load is refused (log 12). -/
def loadConfig (c : Config) (s : State) : Result :=
  if s.booted then .refused .configFixed
  else if c.wf then .next (installConfig c s)
  else .refused .configIllFormed

end Sys2Proof.Machine
end

