-- ==== Sys2Proof/Machine/Flags.lean ====
section
/-! DEFINITION. The flags of the block: five kinds of single-bit state, all plain registers; there is no condition-code
register (`10_state.md` R27). Here are the flag pair of the verification bank and the predicates over it. -/
namespace Sys2Proof.Machine

/-- `satisfied(s)`, R241. -/
def satisfied (s : State) (sv : Service) : Bool :=
  (s.tcv.get sv).acceptReceived && (!(s.gate.get sv).twoPhase || (s.tcv.get sv).executeReceived)

/-- The writes of a success report to `TCV[s]`, R179 and R181: `acceptReceived` is set, `executeReceived` is set for a
completion report and left as it is for an acceptance report. -/
def reportSuccess (completion : Bool) (pid psc : Word16) (t : TcvState) : TcvState :=
  { acceptReceived := true, executeReceived := completion || t.executeReceived, packetID := pid, PSC := psc }

/-- The signal of R243. -/
def signal (sv : Service) (s : State) : State :=
  if (s.gate.get sv).waiting && satisfied s sv then gateSuccess sv s else s

/-- The lifecycle of a telecommand, R250. -/
inductive Lifecycle where
  | awaitingAccept
  | accepted
  | awaitingExecute
  | executed
  | timedOut
deriving DecidableEq, Repr

/-- How the last resolved wait of a service ended, R250: the last `RESULT[s]` event, with the phase bit its cell keeps (R35). A
one-phase operation ends at `Accepted` (C7). -/
def outcome (s : State) (sv : Service) : Option Lifecycle :=
  (s.out.result.get sv).getLast?.map fun r =>
    match r with
    | .ok => if (s.gate.get sv).twoPhase then .executed else .accepted
    | .fail => .timedOut

/-- The lifecycle view, R36 and R250. `Sent` is environment state, of which the block holds nothing: a service that has had no
result and does not wait has no view, and one that has had a result keeps it until its next `AWAIT`. A waiting cell that is
satisfied, which no step leaves behind (R243), is at the instant `Accepted`. -/
def lifecycle (s : State) (sv : Service) : Option Lifecycle :=
  if (s.gate.get sv).waiting then
    if !(s.tcv.get sv).acceptReceived then some .awaitingAccept
    else if (s.gate.get sv).twoPhase && !(s.tcv.get sv).executeReceived then some .awaitingExecute
    else some .accepted
  else outcome s sv

/-- A step from `s` to `t` holds the instant `Accepted` of a wait, R250: the service awaited acceptance, and the step brought it
on, whether to the second wait or to a success. -/
def passesAccepted (s t : State) (sv : Service) : Bool :=
  lifecycle s sv == some .awaitingAccept &&
    [some Lifecycle.awaitingExecute, some .accepted, some .executed].contains (lifecycle t sv)

end Sys2Proof.Machine
end

