-- ==== Sys2Proof/Machine/Codec.lean ====
section
/-! DEFINITION. The codec operations called by themselves (`40_codec.md` R130 to R142); the functions are in
`Machine/Frame.lean`. -/
namespace Sys2Proof.Machine

/-- `FLETCHER16`, R131: refused when the range leaves the data (D8). -/
def execFletcher16 (data : Bytes) (offset count : Nat) (s : State) : Result :=
  if offset + count ≤ data.length then .next (emitReturn (.checksum (fletcher16 data offset count)) s)
  else .refused .rangeOutsideData

/-- `ENCODE`, R133 and R134: total on header records, refused on a payload of another length than 137 (R66). -/
def execEncode (h : Header) (payload : Bytes) (s : State) : Result :=
  if payload.length = payloadLen then .next (emitReturn (.frame (encodeFrame s.cfg h payload)) s)
  else .refused .payloadNot137

/-- `DECODE`, R135 and R138: writes the `PKT` registers and returns the packet; on a wrong length the error is its result and
`PKT` is not written (R261). -/
def execDecode (B : Bytes) (s : State) : Result :=
  match decodeFrame s.cfg B with
  | some p => .next (emitReturn (.packet p) (loadPkt p s))
  | none => .next (emitReturn (.frameLengthError B.length) s)

end Sys2Proof.Machine
end

