-- ==== Sys2Proof/Machine/Gate.lean ====
section
/-! DEFINITION. The TC verification gate (`44_gate.md`): `AWAIT` and `TICK`. The signal is in `Machine/Flags.lean`, success and
timeout are in `Machine/Ops.lean`. -/
namespace Sys2Proof.Machine

/-- The cell an accepted `AWAIT` loads, R242. -/
def armedCell (c : Config) (timeout : Nat) (op : Byte) : GateCell := ⟨false, timeout, 0, op, isTwoPhase c op⟩

/-- The step of an accepted `AWAIT`, R242 and R247: success is tested before the zero timeout. -/
def runAwait (sv : Service) (timeout : Nat) (op : Byte) (s : State) : State :=
  let s1 := setGate sv (armedCell s.cfg timeout op) s
  if satisfied s1 sv then gateSuccess sv s1
  else if timeout = 0 then gateTimedOut sv s1
  else setGate sv { s1.gate.get sv with waiting := true } s1

/-- `AWAIT(s, timeout, operationCode)`, R242: refused for what is no service, for a timeout that does not fit the register, and
while the cell is waiting (R248). -/
def execAwait (sv : Service) (timeout : Nat) (op : Byte) (s : State) : Result :=
  if !s.cfg.services.contains sv then .refused .notAService
  else if 2 ^ s.cfg.timerWidth ≤ timeout then .refused .timeoutTooWide
  else if (s.gate.get sv).waiting then .refused .awaitWhileWaiting
  else .next (runAwait sv timeout op s)

/-- One cell's part of a `TICK`, R245. -/
def tickCell (s : State) (sv : Service) : State :=
  let g := s.gate.get sv
  if g.waiting then
    let s1 := setGate sv { g with elapsed := g.elapsed + 1 } s
    if g.timeout ≤ g.elapsed + 1 then gateTimedOut sv s1 else s1
  else s

/-- `TICK`, R245: every waiting cell, in the order of `SERVICES`. -/
def execTick (s : State) : Result := .next (s.cfg.services.foldl tickCell s)

end Sys2Proof.Machine
end

