-- ==== Sys2Proof/Machine/Reassembler.lean ====
section
/-! DEFINITION. The sequence reassembler (`43_reassembler.md`): the four operations, violation and flush. -/
namespace Sys2Proof.Machine

/-- `violation(k)`, R226. -/
def violation (k : Reasm) (src : Packet) (s : State) : State := raiseError (.sequence k src) s

/-- `flush(k)`, R227. -/
def flush (k : Reasm) (s : State) : State :=
  let r := s.rs.get k
  setRs k { r with phase := .idle, lastSequenceCount := 0, sequenceOffset := 0, buffer := [] } (emitSink k r.buffer s)

/-- The guard of `SEQ.CONT` and `SEQ.LAST`, R224, R225 and R228: `c > lastSequenceCount` as naturals. -/
def mayContinue (r : ReasmState) (c : Byte) : Bool :=
  r.phase == .collecting && decide (r.lastSequenceCount.toNat < c.toNat)

/-- The session after a `FIRST` or `STANDALONE` fragment from `Idle`, R222 and R223. -/
def opened (c : Byte) (frag : Bytes) (phase : Phase) (r : ReasmState) : ReasmState :=
  { r with sequenceOffset := c, lastSequenceCount := c, buffer := frag, phase := phase }

/-- The session after a further fragment, R224 and R225. -/
def extended (c : Byte) (frag : Bytes) (phase : Phase) (r : ReasmState) : ReasmState :=
  { r with buffer := r.buffer ++ frag, lastSequenceCount := c, phase := phase }

/-- `SEQ.FIRST`, R222. -/
def runSeqFirst (k : Reasm) (c : Byte) (frag : Bytes) (src : Packet) (s : State) : State :=
  if (s.rs.get k).phase == .idle then setRs k (opened c frag .collecting (s.rs.get k)) s
  else violation k src s

/-- `SEQ.STANDALONE`, R223. -/
def runSeqStandalone (k : Reasm) (c : Byte) (frag : Bytes) (src : Packet) (s : State) : State :=
  if (s.rs.get k).phase == .idle then flush k (setRs k (opened c frag .done (s.rs.get k)) s)
  else violation k src s

/-- `SEQ.CONT`, R224. -/
def runSeqCont (k : Reasm) (c : Byte) (frag : Bytes) (src : Packet) (s : State) : State :=
  if mayContinue (s.rs.get k) c then setRs k (extended c frag .collecting (s.rs.get k)) s
  else violation k src s

/-- `SEQ.LAST`, R225. -/
def runSeqLast (k : Reasm) (c : Byte) (frag : Bytes) (src : Packet) (s : State) : State :=
  if mayContinue (s.rs.get k) c then flush k (setRs k (extended c frag .done (s.rs.get k)) s)
  else violation k src s

/-- The feed of an instance by the Router: the flags select the operation, R108 and R220. -/
def feedReasm (k : Reasm) (p : Packet) (s : State) : State :=
  match seqOpOf p.seqFlags with
  | .cont => runSeqCont k p.seqCount (fragment s.cfg p) p s
  | .first => runSeqFirst k p.seqCount (fragment s.cfg p) p s
  | .last => runSeqLast k p.seqCount (fragment s.cfg p) p s
  | .standalone => runSeqStandalone k p.seqCount (fragment s.cfg p) p s

/-- The feed by `REASM_FEED`, P16, R174 and R220: nothing for a pair that feeds no instance. -/
def feedByConfig (p : Packet) (s : State) : State :=
  match reasmOf s.cfg p with
  | some k => feedReasm k p s
  | none => s

/-- `SEQ.FIRST`, R222. -/
def execSeqFirst (k : Reasm) (c : Byte) (frag : Bytes) (src : Packet) (s : State) : Result :=
  .next (runSeqFirst k c frag src s)

/-- `SEQ.STANDALONE`, R223. -/
def execSeqStandalone (k : Reasm) (c : Byte) (frag : Bytes) (src : Packet) (s : State) : Result :=
  .next (runSeqStandalone k c frag src s)

/-- `SEQ.CONT`, R224. -/
def execSeqCont (k : Reasm) (c : Byte) (frag : Bytes) (src : Packet) (s : State) : Result :=
  .next (runSeqCont k c frag src s)

/-- `SEQ.LAST`, R225. -/
def execSeqLast (k : Reasm) (c : Byte) (frag : Bytes) (src : Packet) (s : State) : Result :=
  .next (runSeqLast k c frag src s)

end Sys2Proof.Machine
end

