-- ==== Sys2Proof/Machine/Verifier.lean ====
section
/-! DEFINITION. The telemetry verifier (`41_verifier.md`): the seven checks, `VERIFY` as a pure function, and the operation. -/
namespace Sys2Proof.Machine

/-- Check 1, length, R151. -/
def check1 (p : Packet) : Bool := declaredLen p == 152

/-- Check 2, checksum, R152. -/
def check2 (p : Packet) : Bool := p.recvChecksum == p.calcChecksum

/-- Check 3, service type, R153. -/
def check3 (p : Packet) : Bool := [1, 3, 5, 6, 9, 69].contains p.serviceType

/-- Check 4, service subtype, R154 (whitelist R155, P7). -/
def check4 (c : Config) (p : Packet) : Bool := (subtypesOf c p.serviceType).contains p.serviceSubType

/-- Check 5, sender identity, R156: only for the service types that have an expected identity. -/
def check5 (c : Config) (p : Packet) : Bool :=
  match expectedApid c p.serviceType with
  | some a => p.apid == a
  | none => true

/-- Check 6, memory id and address, R157. -/
def check6 (c : Config) (p : Packet) : Bool :=
  if p.serviceType = 6 then
    memId c p == 0 || (memId c p == 1 && decide (memAddr c p ≤ 0xFFFFF))
  else true

/-- Check 7, protocol versions, R158. -/
def check7 (p : Packet) : Bool := p.version == 1 && p.ccsdsFlag == 1 && p.pktVersion == 1

/-- `VERIFY(PKT)`, R150: the reason of the first check that fails. -/
def verifyPacket (c : Config) (p : Packet) : Verdict :=
  if !check1 p then .reject .lengthMismatch
  else if !check2 p then .reject .checksumMismatch
  else if !check3 p then .reject .unknownServiceType
  else if !check4 c p then .reject .unknownSubType
  else if !check5 c p then .reject .invalidApid
  else if !check6 c p then .reject .invalidMemoryAddress
  else if !check7 p then .reject .versionMismatch
  else .ok

/-- `VERIFY` called by itself, R150 and R262: the verdict is its result, nothing is emitted. -/
def execVerify (p : Packet) (s : State) : Result := .next (emitReturn (.verdict (verifyPacket s.cfg p)) s)

end Sys2Proof.Machine
end

