-- ==== Sys2Proof/Machine/Services.lean ====
section
/-! DEFINITION. The dispatch operations (`42_router.md` R174 to R199): the seventeen of format F152, each a transition of its
own, and the selection among them by the branch of the service type. -/
namespace Sys2Proof.Machine

/-- A success report: R179 and R181, with R183 for a destination that names no service. -/
def successReport (completion : Bool) (p : Packet) (s : State) : State :=
  match serviceOfApid s.cfg (tcvDestApid s.cfg p) with
  | none => raiseError (.logged .unknownVerifyDestination) s
  | some sv =>
    signal sv (setTcv sv (reportSuccess completion (tcvPacketId s.cfg p) (tcvPsc s.cfg p) (s.tcv.get sv)) s)

/-- A failure report of a subtype: R180 and R182. -/
def failureReport (subtype : Byte) (p : Packet) (s : State) : State :=
  emitAlert s.cfg.codes.tcVerifyFailed subtype (some p) (emitLog (.tcVerifyFailure subtype) s)

/-- An event report of the failure class: R189 to R191. -/
def alertingEvent (severity : Byte) (p : Packet) (s : State) : State :=
  emitAlert s.cfg.codes.eventAlert severity (some p) (emitLog (.eventReport p) s)

/-- `emit FWD[c](ENVELOPE(PKT))`, R175 and R177. -/
def forwardEnvelope (c : Consumer) (p : Packet) (s : State) : State := emitFwd c (envelope s.cfg p) s

/-- `delta` of R196, a mathematical integer. -/
def timeDelta (incoming loc : Time) : Int := (absMinutes incoming : Int) - (absMinutes loc : Int)

/-- `TIMESYNC(PKT)`, R196: the adoption is the error `TimeOutOfSync` (R265). -/
def timesync (p : Packet) (s : State) : State :=
  if 90 < (timeDelta p.ts s.lt).natAbs then raiseError (.desync p) s else s

/-- `TCV.ACC_OK`, R179. -/
def runTcvAccOk (p : Packet) (s : State) : State := successReport false p s

/-- `TCV.ACC_FAIL`, R180. -/
def runTcvAccFail (p : Packet) (s : State) : State := failureReport p.serviceSubType p s

/-- `TCV.EXE_OK`, R181. -/
def runTcvExeOk (p : Packet) (s : State) : State := successReport true p s

/-- `TCV.EXE_FAIL`, R182. -/
def runTcvExeFail (p : Packet) (s : State) : State := failureReport 8 p s

/-- `HK.10`, R184. -/
def runHk10 (p : Packet) (s : State) : State := forwardEnvelope .hk p s

/-- `HK.12`, R185. -/
def runHk12 (p : Packet) (s : State) : State := forwardEnvelope .hk p s

/-- `HK.25`, R186. -/
def runHk25 (p : Packet) (s : State) : State := forwardEnvelope .hk p s

/-- `HK.26`, R187. -/
def runHk26 (p : Packet) (s : State) : State := forwardEnvelope .hk p s

/-- `EVT.1`, R188. -/
def runEvt1 (p : Packet) (s : State) : State := emitLog (.eventReport p) s

/-- `EVT.2`, R189. -/
def runEvt2 (p : Packet) (s : State) : State := alertingEvent 2 p s

/-- `EVT.3`, R190. -/
def runEvt3 (p : Packet) (s : State) : State := alertingEvent 3 p s

/-- `EVT.4`, R191. -/
def runEvt4 (p : Packet) (s : State) : State := alertingEvent 4 p s

/-- `MEM.6`, R192; that the pair (6, 6) feeds `MEMDUMP` is P16. -/
def runMem6 (p : Packet) (s : State) : State := feedByConfig p (forwardEnvelope .mem p s)

/-- `MEM.10`, R193; that the pair (6, 10) feeds nothing is P16 (log 16). -/
def runMem10 (p : Packet) (s : State) : State := feedByConfig p (forwardEnvelope .mem p s)

/-- `TIME.2`, R194. -/
def runTime2 (p : Packet) (s : State) : State := timesync p s

/-- `SCHED.4`, R195; that the pair (69, 4) feeds `SCHEDREPORT` is P16. -/
def runSched4 (p : Packet) (s : State) : State := feedByConfig p (forwardEnvelope .sched p s)

/-- `FDIR.FWD`, R198. -/
def runFdirFwd (p : Packet) (s : State) : State := forwardEnvelope .fdir p s

/-- The dispatch operation named `op` on a packet. -/
def runDispatchOp (op : DispatchOp) (p : Packet) (s : State) : State :=
  match op with
  | .tcvAccOk => runTcvAccOk p s
  | .tcvAccFail => runTcvAccFail p s
  | .tcvExeOk => runTcvExeOk p s
  | .tcvExeFail => runTcvExeFail p s
  | .hk10 => runHk10 p s
  | .hk12 => runHk12 p s
  | .hk25 => runHk25 p s
  | .hk26 => runHk26 p s
  | .evt1 => runEvt1 p s
  | .evt2 => runEvt2 p s
  | .evt3 => runEvt3 p s
  | .evt4 => runEvt4 p s
  | .mem6 => runMem6 p s
  | .mem10 => runMem10 p s
  | .time2 => runTime2 p s
  | .sched4 => runSched4 p s
  | .fdirFwd => runFdirFwd p s

/-- A pair that no row of R107 lists, admitted by a widened whitelist: it behaves as its branch says (R174); any other service
type logs `Undispatched` (R199), which no verified packet reaches. -/
def runBranch (p : Packet) (s : State) : State :=
  if p.serviceType = 1 then s
  else if p.serviceType = 3 then forwardEnvelope .hk p s
  else if p.serviceType = 5 then
    if 1 < p.serviceSubType.toNat then alertingEvent p.serviceSubType p s else emitLog (.eventReport p) s
  else if p.serviceType = 6 then feedByConfig p (forwardEnvelope .mem p s)
  else if p.serviceType = 9 then timesync p s
  else if p.serviceType = 69 then feedByConfig p (forwardEnvelope .sched p s)
  else if p.serviceType = 70 then forwardEnvelope .fdir p s
  else raiseError (.logged .undispatched) s

/-- `dispatch(Packet)`, R174. -/
def dispatch (p : Packet) (s : State) : State :=
  match dispatchOpOf (selector p) with
  | some op => runDispatchOp op p s
  | none => runBranch p s

/-- `TCV.ACC_OK`, R179. -/
def execTcvAccOk (p : Packet) (s : State) : Result := .next (runTcvAccOk p s)

/-- `TCV.ACC_FAIL`, R180. -/
def execTcvAccFail (p : Packet) (s : State) : Result := .next (runTcvAccFail p s)

/-- `TCV.EXE_OK`, R181. -/
def execTcvExeOk (p : Packet) (s : State) : Result := .next (runTcvExeOk p s)

/-- `TCV.EXE_FAIL`, R182. -/
def execTcvExeFail (p : Packet) (s : State) : Result := .next (runTcvExeFail p s)

/-- `HK.10`, R184. -/
def execHk10 (p : Packet) (s : State) : Result := .next (runHk10 p s)

/-- `HK.12`, R185. -/
def execHk12 (p : Packet) (s : State) : Result := .next (runHk12 p s)

/-- `HK.25`, R186. -/
def execHk25 (p : Packet) (s : State) : Result := .next (runHk25 p s)

/-- `HK.26`, R187. -/
def execHk26 (p : Packet) (s : State) : Result := .next (runHk26 p s)

/-- `EVT.1`, R188. -/
def execEvt1 (p : Packet) (s : State) : Result := .next (runEvt1 p s)

/-- `EVT.2`, R189. -/
def execEvt2 (p : Packet) (s : State) : Result := .next (runEvt2 p s)

/-- `EVT.3`, R190. -/
def execEvt3 (p : Packet) (s : State) : Result := .next (runEvt3 p s)

/-- `EVT.4`, R191. -/
def execEvt4 (p : Packet) (s : State) : Result := .next (runEvt4 p s)

/-- `MEM.6`, R192. -/
def execMem6 (p : Packet) (s : State) : Result := .next (runMem6 p s)

/-- `MEM.10`, R193. -/
def execMem10 (p : Packet) (s : State) : Result := .next (runMem10 p s)

/-- `TIME.2`, R194. -/
def execTime2 (p : Packet) (s : State) : Result := .next (runTime2 p s)

/-- `SCHED.4`, R195. -/
def execSched4 (p : Packet) (s : State) : Result := .next (runSched4 p s)

/-- `FDIR.FWD`, R198. -/
def execFdirFwd (p : Packet) (s : State) : Result := .next (runFdirFwd p s)

end Sys2Proof.Machine
end

