-- ==== Sys2Proof/Machine/Router.lean ====
section
/-! DEFINITION. The Router's port operations (`42_router.md`): the inbound pipeline `RX`, the packetizer `TC`, and the
local-time operations `LT_SET` and `BCAST`. -/
namespace Sys2Proof.Machine

/-- What follows `VERIFY` in the `RX` step, R171 and R173. -/
def routeVerdict (p : Packet) (s : State) : Verdict → State
  | .reject reason => raiseError (.logged reason) s
  | .ok => dispatch p (emitLog .verifyOk s)

/-- The `RX` step, R171 to R173. A byte list of another length than 152 is archived and logged and not latched (R172;
log 7). -/
def runRx (B : Bytes) (s : State) : State :=
  let s1 := emitArchive B s
  match decodeFrame s.cfg B with
  | none => raiseError (.logged .frameLengthError) s1
  | some p => routeVerdict p (loadPkt p (loadFrame B s1)) (verifyPacket s.cfg p)

/-- `RX(B)`, R171. -/
def execRx (B : Bytes) (s : State) : Result := .next (runRx B s)

/-- `TC(sender, dest, serviceType, serviceSubType, subCounter, numPackets, appData)`, R200 to R206: refused outside its
precondition, R201. -/
def execTc (sender dest svc sub subCounter : Byte) (numPackets : Nat) (appData : Bytes) (s : State) : Result :=
  if tcAdmitted numPackets appData.length then
    .next (emitLinkTx (tcFrames s.cfg s.lt sender dest svc sub subCounter numPackets appData) s)
  else .refused .tcNotAdmitted

/-- The operands of `LT_SET` reduced to the widths of the registers, R207 (P17). -/
def truncTime (w : TimeWidths) (day hour minute second : Nat) : Time :=
  ⟨day % 2 ^ w.day, hour % 2 ^ w.hour, minute % 2 ^ w.minute, second % 2 ^ w.second⟩

/-- `LT_SET(day, hour, minute, second)`, R207. -/
def execLtSet (day hour minute second : Nat) (s : State) : Result :=
  .next (broadcastWrite (setLt (truncTime s.cfg.ltWidths day hour minute second) s))

/-- `BCAST`, R208 (P19). -/
def execBcast (s : State) : Result := .next (if s.cfg.bcastPolicy.onRequest then emitBcastAll s else s)

end Sys2Proof.Machine
end

