-- ==== Sys2Proof/Machine/Dispatch.lean ====
section
/-! DEFINITION. The meaning of every operation: one arm per row of `spec/opcode_table.json`. -/
namespace Sys2Proof.Machine

/-- The effect of one operation, one atomic step (R68). -/
def exec (i : Instr) (s : State) : Host.Outcome State Fault Refusal :=
  match i with
  | .tcvAccOk p => Sys2Proof.Machine.execTcvAccOk p s
  | .tcvAccFail p => Sys2Proof.Machine.execTcvAccFail p s
  | .tcvExeOk p => Sys2Proof.Machine.execTcvExeOk p s
  | .tcvExeFail p => Sys2Proof.Machine.execTcvExeFail p s
  | .hk10 p => Sys2Proof.Machine.execHk10 p s
  | .hk12 p => Sys2Proof.Machine.execHk12 p s
  | .hk25 p => Sys2Proof.Machine.execHk25 p s
  | .hk26 p => Sys2Proof.Machine.execHk26 p s
  | .evt1 p => Sys2Proof.Machine.execEvt1 p s
  | .evt2 p => Sys2Proof.Machine.execEvt2 p s
  | .evt3 p => Sys2Proof.Machine.execEvt3 p s
  | .evt4 p => Sys2Proof.Machine.execEvt4 p s
  | .mem6 p => Sys2Proof.Machine.execMem6 p s
  | .mem10 p => Sys2Proof.Machine.execMem10 p s
  | .time2 p => Sys2Proof.Machine.execTime2 p s
  | .sched4 p => Sys2Proof.Machine.execSched4 p s
  | .fdirFwd p => Sys2Proof.Machine.execFdirFwd p s
  | .fletcher16 data offset count => Sys2Proof.Machine.execFletcher16 data offset count s
  | .encode h payload => Sys2Proof.Machine.execEncode h payload s
  | .decode frame => Sys2Proof.Machine.execDecode frame s
  | .verify p => Sys2Proof.Machine.execVerify p s
  | .rx frame => Sys2Proof.Machine.execRx frame s
  | .tc sender dest svc sub subCounter numPackets appData => Sys2Proof.Machine.execTc sender dest svc sub subCounter numPackets appData s
  | .ltSet day hour minute second => Sys2Proof.Machine.execLtSet day hour minute second s
  | .bcast => Sys2Proof.Machine.execBcast s
  | .await sv timeout opcode => Sys2Proof.Machine.execAwait sv timeout opcode s
  | .tick => Sys2Proof.Machine.execTick s
  | .seqCont k c frag src => Sys2Proof.Machine.execSeqCont k c frag src s
  | .seqFirst k c frag src => Sys2Proof.Machine.execSeqFirst k c frag src s
  | .seqLast k c frag src => Sys2Proof.Machine.execSeqLast k c frag src s
  | .seqStandalone k c frag src => Sys2Proof.Machine.execSeqStandalone k c frag src s

end Sys2Proof.Machine
end

