-- ==== Sys2Proof/Machine/Fetch.lean ====
section
/-! DEFINITION. How an input event becomes a step: there is no program counter and no fetch (`10_state.md` R26, R37); what runs
next is the next event of the environment (`20_memory.md` R73, `60_exceptions.md` R269). -/
namespace Sys2Proof.Machine

/-- The operation that a request asks the block for. A frame is a delivery: the block performs `RX` on it, which performs the
dispatch operation that the frame selects after `VERIFY` has said `Ok`, and nothing else leads there (R171, R174). The words of a
port are the operation they decode to. -/
def requested (c : Config) (w : Words) : Except DecodeError Instr :=
  match w with
  | .frame152 F => .ok (.rx F)
  | .port code operands => decode c (.port code operands)
  | .seq2 flags operands => decode c (.seq2 flags operands)

/-- A request: the operation it asks for, if its agent may issue it (R279). -/
def runRequest (r : Request) (s : State) : Result :=
  match requested s.cfg r.words with
  | .error e => .refused (.undecodable e)
  | .ok i => if permits s.cfg r.agent i then exec i s else .refused .wrongAgent

/-- The state in which the operation of a request runs: the event is taken from the schedule, and from now on the configuration
is fixed (R303). -/
def taken (rest : List InputEvent) (s : State) : State := { s with inbox := rest, booted := true }

/-- One input event, with the events after it. -/
def runEvent (e : InputEvent) (rest : List InputEvent) (s : State) : Result :=
  match e with
  | .request r => runRequest r (taken rest s)
  | .reset => .next (assertReset { s with inbox := rest })
  | .loadConfig c => loadConfig c { s with inbox := rest }

/-- One step: the next input event, or nothing when none is scheduled, the block being idle between input events (R83, R293;
log 8). -/
def runNext (s : State) : Result :=
  match s.inbox with
  | [] => .next s
  | e :: rest => runEvent e rest s

/-- The request of a word of `spec/opcode_table.json` as the next input event. -/
def scheduleTableWord (s : State) (nbits w : Nat) : State :=
  { s with inbox := .request (requestOfTableWord s.cfg nbits w) :: s.inbox }

end Sys2Proof.Machine
end

