-- ==== Sys2Proof/Machine/Step.lean ====
section
/-! DEFINITION. The step of the block, and the word placed where the step takes its next operation. -/
namespace Sys2Proof.Machine

/-- One step of the block: one atomic operation on one input event (R68, R73). -/
def step (s : State) : Host.Outcome State Fault Refusal := runNext s

/-- The state with a word of `spec/opcode_table.json` as its next input event, so that the very next step performs it
(log 3). -/
def State.withFetchWord (s : State) (nbits w : Nat) : State := scheduleTableWord s nbits w

end Sys2Proof.Machine
end

