-- ==== Sys2Proof/Safety.lean ====
section
/-! DEFINITION. The terms in which claims about the block are made: what the bytes of an envelope and of an alert are, byte by
byte; what a run of operations is; and the invariants of the gate, of the reassembler, of the registers' widths, of the buffers
and of the ports. The machine does not use them. -/
namespace Sys2Proof.Machine

/-- Bytes [0,137) of `E` are the payload bytes of `p`, same index (R105). -/
def CarriesPayload (E : Bytes) (p : Packet) : Prop := ∀ i < 137, E[i]? = some (byteAt p.payload i)

/-- Bytes 141 to 144 of `E` carry the PSC and the packet id of `p`, low byte first (R105, R176), written out from the header
fields: bits 13 to 8 of the PSC and bits 10 to 8 of the packet id are zero. -/
def CarriesIds (E : Bytes) (p : Packet) : Prop :=
  byteAt E 141 = p.seqCount ∧ (byteAt E 142).toNat = 64 * p.seqFlags.toNat ∧
  byteAt E 143 = p.apid ∧
  (byteAt E 144).toNat = 32 * p.version.toNat + 16 * p.pktType.toNat + 8 * p.secHdrFlag.toNat

/-- `E` is the Command Envelope of `p`, byte by byte (R105, R175): the memory forwards carry the sequence count, the sequence
flags and the memory id, every other forward has zeros there. -/
structure IsEnvelope (c : Config) (p : Packet) (E : Bytes) : Prop where
  length : E.length = 147
  payload : CarriesPayload E p
  zeros : byteAt E 137 = 0 ∧ byteAt E 138 = 0
  ids : CarriesIds E p
  memory : p.serviceType = 6 → byteAt E 139 = p.seqCount ∧ (byteAt E 140).toNat = p.seqFlags.toNat ∧
    byteAt E 145 = byteAt p.payload c.memFields.id.val
  plain : p.serviceType ≠ 6 → byteAt E 139 = 0 ∧ byteAt E 140 = 0 ∧ byteAt E 145 = 0
  code : byteAt E 146 = p.serviceSubType

/-- `E` is the alert envelope of a packet, byte by byte (R106, R178). -/
structure IsAlert (code aux : Byte) (p : Packet) (E : Bytes) : Prop where
  length : E.length = 147
  payload : CarriesPayload E p
  zeros : ∀ i, 137 ≤ i → i ≤ 140 → byteAt E i = 0
  ids : CarriesIds E p
  aux : byteAt E 145 = aux
  code : byteAt E 146 = code

/-- `E` is an alert envelope without a packet: the code in byte 146, every other byte zero (R106, R246). -/
structure IsBareAlert (code : Byte) (E : Bytes) : Prop where
  length : E.length = 147
  zeros : ∀ i < 146, byteAt E i = 0
  code : byteAt E 146 = code

/-- `j` is the operation on reassembler instance `k` that the sequence flags of `p` select, with the count of `p`, the payload
bytes of the slice in its order, and `p` itself (R108, R220, R221). -/
def IsFeedOf (c : Config) (k : Reasm) (p : Packet) (j : Instr) : Prop :=
  ∃ frag : Bytes, frag = c.fragSlice.map (fun i => byteAt p.payload i.val) ∧
    ((p.seqFlags = 0b00 ∧ j = .seqCont k p.seqCount frag p) ∨ (p.seqFlags = 0b01 ∧ j = .seqFirst k p.seqCount frag p) ∨
      (p.seqFlags = 0b10 ∧ j = .seqLast k p.seqCount frag p) ∨ (p.seqFlags = 0b11 ∧ j = .seqStandalone k p.seqCount frag p))

/-- The state after `emit FWD[c](E)` and nothing else. -/
def forwarded (c : Consumer) (E : Bytes) (s : State) : State :=
  { s with out := { s.out with fwd := s.out.fwd.set c (s.out.fwd.get c ++ [E]) } }

/-- The state after `emit LOG(e)` and nothing else. -/
def logged (e : LogEvent) (s : State) : State := { s with out := { s.out with log := s.out.log ++ [e] } }

/-- The state after a directly called function has returned `v` and nothing else. -/
def answered (v : ReturnValue) (s : State) : State := { s with returned := s.returned ++ [v] }

/-- A list of operations, one after the other. -/
def execAll : List Instr → State → Result
  | [], s => .next s
  | i :: rest, s =>
    match exec i s with
    | .next t => execAll rest t
    | .fault f => .fault f
    | .refused r => .refused r

/-- `n` operations `TICK`. -/
def ticks (n : Nat) (s : State) : Result := execAll (List.replicate n .tick) s

/-- The gate's steady state (R243, R245): a waiting cell is not satisfied and its time has not run out. -/
def GateInv (s : State) : Prop :=
  ∀ sv, (s.gate.get sv).waiting = true → satisfied s sv = false ∧ (s.gate.get sv).elapsed < (s.gate.get sv).timeout

/-- The reassembler's steady state (R227, R230, D22): `Done` is never held between steps, a session in `Idle` has zero counts
and an empty buffer, and a session in `Collecting` has accepted no count below its first. -/
def ReasmInv (s : State) : Prop :=
  ∀ k, (s.rs.get k).phase ≠ .done ∧
    ((s.rs.get k).phase = .idle → (s.rs.get k).lastSequenceCount = 0 ∧ (s.rs.get k).sequenceOffset = 0 ∧
      (s.rs.get k).buffer = []) ∧
    ((s.rs.get k).phase = .collecting → (s.rs.get k).sequenceOffset.toNat ≤ (s.rs.get k).lastSequenceCount.toNat) ∧
    (s.rs.get k).expectedTotalPackets = 0

/-- A reassembly buffer holds at most one fragment per sequence count from the first to the last (R34). -/
def BufferInv (s : State) : Prop :=
  ∀ k, (s.rs.get k).sequenceOffset.toNat ≤ (s.rs.get k).lastSequenceCount.toNat ∧
    (s.rs.get k).buffer.length ≤
      ((s.rs.get k).lastSequenceCount.toNat - (s.rs.get k).sequenceOffset.toNat + 1) * s.cfg.fragSlice.length

/-- The registers of parameter width hold values of their width (R22, R28, R29, R35). -/
def WidthInv (s : State) : Prop :=
  s.pkt.ts.fits s.cfg.tsWidths = true ∧ s.lt.fits s.cfg.ltWidths = true ∧ s.prevLt.fits s.cfg.ltWidths = true ∧
    ∀ sv, (s.gate.get sv).timeout < 2 ^ s.cfg.timerWidth ∧ (s.gate.get sv).elapsed < 2 ^ s.cfg.timerWidth

/-- The frame latch has 152 bytes and the payload register 137 (R21, R23). -/
def BufferSizes (s : State) : Prop := s.frame.length = 152 ∧ s.pkt.payload.length = 137

/-- The configuration is admissible, and until it is fixed the state, the schedule apart, is the reset state under it (R300,
R303; the values of `FRAME` and `PKT` at reset are the model's, log 5, and when the configuration is fixed is log 12). -/
def BootInv (s : State) : Prop :=
  s.cfg.wf = true ∧ (s.booted = false → s = { State.resetWith s.cfg with inbox := s.inbox })

/-- Every bank over the services has one entry for each member of `SERVICES`, in its order, and no other (R43). -/
def BankInv (s : State) : Prop :=
  s.tcv.services = s.cfg.services ∧ s.gate.services = s.cfg.services ∧ s.out.result.services = s.cfg.services ∧
    s.out.bcast.services = s.cfg.services

/-- Every envelope on a `FWD` port is 147 bytes long, every frame on `LINK_TX` 152 (R66, R284, R287). -/
def PortInv (s : State) : Prop :=
  (∀ c, ∀ E ∈ s.out.fwd.get c, E.length = 147) ∧ ∀ F ∈ s.out.linkTx, F.length = 152

/-- Every output port of `t` holds what it holds in `s`, in the same order, with events after it (R38, R74). -/
structure PortsExtend (s t : State) : Prop where
  archive : ∃ l, t.out.archive = s.out.archive ++ l
  log : ∃ l, t.out.log = s.out.log ++ l
  fwd : ∀ c, ∃ l, t.out.fwd.get c = s.out.fwd.get c ++ l
  linkTx : ∃ l, t.out.linkTx = s.out.linkTx ++ l
  sink : ∀ k, ∃ l, t.out.sink.get k = s.out.sink.get k ++ l
  result : ∀ sv, ∃ l, t.out.result.get sv = s.out.result.get sv ++ l
  bcast : ∀ sv, ∃ l, t.out.bcast.get sv = s.out.bcast.get sv ++ l

/-- Two packets that differ only in what no check of `VERIFY` reads (R162): `type`, `secHdrFlag`, the sequence fields, `ack`,
`srcDstId`, `subCounter` and the timestamp; `apid` where the service has no expected identity; the payload, apart from the
memory id and address of a memory packet. -/
structure SameForVerify (c : Config) (p q : Packet) : Prop where
  version : p.version = q.version
  length : p.length = q.length
  ccsdsFlag : p.ccsdsFlag = q.ccsdsFlag
  pktVersion : p.pktVersion = q.pktVersion
  serviceType : p.serviceType = q.serviceType
  serviceSubType : p.serviceSubType = q.serviceSubType
  recvChecksum : p.recvChecksum = q.recvChecksum
  calcChecksum : p.calcChecksum = q.calcChecksum
  apid : p.serviceType = 1 ∨ p.serviceType = 5 ∨ p.apid = q.apid
  memory : p.serviceType = 6 → memId c p = memId c q ∧ memAddr c p = memAddr c q

end Sys2Proof.Machine
end

