-- ==== Sys2Proof/Certificates/Slice0/Obligations.lean ====
section
/-! DEFINITION. The statements for the provers. Each docstring names the rule of spec/ it formalises. -/

open Sys2Proof Sys2Proof.Machine

/-! ### The codec (40_codec.md) -/

/-- R131: `FLETCHER16` runs the loop over `count` bytes from `offset`, both accumulators starting at 0, and returns
`(sum2 << 8) | sum1`; no state is written; a range that leaves the data is refused. -/
def Obligations.Fletcher16RunsItsLoop : Prop :=
  ∀ (data : Bytes) (offset count : Nat) (s : State),
    (offset + count ≤ data.length →
      ∃ (sum1 sum2 : Nat → Nat) (w : Word16),
        sum1 0 = 0 ∧ sum2 0 = 0 ∧
        (∀ i < count, sum1 (i + 1) = (sum1 i + (byteAt data (offset + i)).toNat) % 255 ∧
          sum2 (i + 1) = (sum2 i + sum1 (i + 1)) % 255) ∧
        w.toNat = sum2 count * 256 + sum1 count ∧
        exec (.fletcher16 data offset count) s = .next (answered (.checksum w) s)) ∧
    (data.length < offset + count → exec (.fletcher16 data offset count) s = .refused .rangeOutsideData)

/-- The arithmetic law of the checksum (40_codec.md section 2, inferred there from R131): the accumulators stay below 255, the
adders need 9 bits, a byte FF counts like a byte 00, and both sums have closed forms. -/
def Obligations.ChecksumArithmetic : Prop :=
  ∀ (pre post : Bytes) (x : Byte),
    (fletcherSums pre).1 ≤ 254 ∧ (fletcherSums pre).2 ≤ 254 ∧
    (fletcherSums pre).1 + x.toNat ≤ 509 ∧ (fletcherSums pre).2 + (fletcherSums (pre ++ [x])).1 ≤ 508 ∧
    fletcherSums (pre ++ 0xFF :: post) = fletcherSums (pre ++ 0x00 :: post) ∧
    (fletcherSums pre).1 = (pre.map BitVec.toNat).sum % 255 ∧
    (fletcherSums pre).2 = (pre.mapIdx fun i b => (pre.length - i) * b.toNat).sum % 255

/-- R133, R134 with the default places of R92 and R100: the frame `ENCODE` returns, byte by byte, every field reduced to its
width, and the checksum of bytes [2,152) in bytes 1 and 0; R66: a payload of another length is refused. -/
def Obligations.EncodePacksTheFrame : Prop :=
  ∀ (h : Header) (p : Bytes) (s : State),
    s.cfg.layout = defaultLayout → s.cfg.cksHiIndex = 1 → s.cfg.tsWidths.sum = 16 →
    (p.length = 137 →
      ∃ F : Bytes, exec (.encode h p) s = .next (answered (.frame F) s) ∧ F.length = 152 ∧
        (∀ i < 137, byteAt F (2 + i) = byteAt p i) ∧
        (byteAt F 140).toNat * 256 + (byteAt F 139).toNat =
          (h.ts.day % 2 ^ s.cfg.tsWidths.day) *
              2 ^ (s.cfg.tsWidths.hour + s.cfg.tsWidths.minute + s.cfg.tsWidths.second) +
            (h.ts.hour % 2 ^ s.cfg.tsWidths.hour) * 2 ^ (s.cfg.tsWidths.minute + s.cfg.tsWidths.second) +
            (h.ts.minute % 2 ^ s.cfg.tsWidths.minute) * 2 ^ s.cfg.tsWidths.second +
            h.ts.second % 2 ^ s.cfg.tsWidths.second ∧
        (byteAt F 141).toNat = h.subCounter % 256 ∧ (byteAt F 142).toNat = h.srcDstId % 256 ∧
        (byteAt F 143).toNat = h.serviceSubType % 256 ∧ (byteAt F 144).toNat = h.serviceType % 256 ∧
        (byteAt F 145).toNat = (h.ccsdsFlag % 2) * 128 + (h.pktVersion % 8) * 16 + h.ack % 16 ∧
        (byteAt F 146).toNat = h.length % 256 ∧ byteAt F 147 = 0 ∧
        (byteAt F 148).toNat = h.seqCount % 256 ∧ (byteAt F 149).toNat = (h.seqFlags % 4) * 64 ∧
        (byteAt F 150).toNat = h.apid % 256 ∧
        (byteAt F 151).toNat = (h.version % 8) * 32 + (h.pktType % 2) * 16 + (h.secHdrFlag % 2) * 8 ∧
        word16 (byteAt F 1) (byteAt F 0) = fletcher16 F 2 150) ∧
    (p.length ≠ 137 → exec (.encode h p) s = .refused .payloadNot137)

/-- R135 with the default places of R92 and R99: the packet `DECODE` returns and writes to `PKT`, field by field; R138: on
another length the error is the result and `PKT` is not written. -/
def Obligations.DecodeReadsTheFrame : Prop :=
  ∀ (F : Bytes) (s : State),
    s.cfg.layout = defaultLayout → s.cfg.cksHiIndex = 1 → s.cfg.tsWidths.sum = 16 →
    (F.length = 152 →
      ∃ (q : Packet) (tsw : Nat), exec (.decode F) s = .next (answered (.packet q) { s with pkt := q }) ∧
        q.version.toNat = (byteAt F 151).toNat / 32 ∧ q.pktType.toNat = (byteAt F 151).toNat / 16 % 2 ∧
        q.secHdrFlag.toNat = (byteAt F 151).toNat / 8 % 2 ∧ q.apid = byteAt F 150 ∧
        q.seqFlags.toNat = (byteAt F 149).toNat / 64 ∧ q.seqCount = byteAt F 148 ∧ q.length = byteAt F 146 ∧
        q.ccsdsFlag.toNat = (byteAt F 145).toNat / 128 ∧ q.pktVersion.toNat = (byteAt F 145).toNat / 16 % 8 ∧
        q.ack.toNat = (byteAt F 145).toNat % 16 ∧ q.serviceType = byteAt F 144 ∧ q.serviceSubType = byteAt F 143 ∧
        q.srcDstId = byteAt F 142 ∧ q.subCounter = byteAt F 141 ∧
        tsw = (byteAt F 140).toNat * 256 + (byteAt F 139).toNat ∧
        q.ts.second = tsw % 2 ^ s.cfg.tsWidths.second ∧
        q.ts.minute = tsw / 2 ^ s.cfg.tsWidths.second % 2 ^ s.cfg.tsWidths.minute ∧
        q.ts.hour = tsw / 2 ^ (s.cfg.tsWidths.second + s.cfg.tsWidths.minute) % 2 ^ s.cfg.tsWidths.hour ∧
        q.ts.day = tsw / 2 ^ (s.cfg.tsWidths.second + s.cfg.tsWidths.minute + s.cfg.tsWidths.hour) ∧
        q.payload = (F.drop 2).take 137 ∧
        q.recvChecksum.toNat = (byteAt F 1).toNat * 256 + (byteAt F 0).toNat ∧ q.calcChecksum = fletcher16 F 2 150) ∧
    (F.length ≠ 152 → exec (.decode F) s = .next (answered (.frameLengthError F.length) s))

/-- R137 (with R136 and R134): for every configuration that meets the requirements, `DECODE(ENCODE(h, p))` has the fields of
`h`, each reduced to its width and so `h` itself when it is well-formed, the payload `p`, and equal checksums. -/
def Obligations.DecodeInvertsEncode : Prop :=
  ∀ (c : Config) (h : Header) (p : Bytes), c.wf = true → p.length = 137 →
    ∃ q : Packet, decodeFrame c (encodeFrame c h p) = some q ∧ q.payload = p ∧ q.recvChecksum = q.calcChecksum ∧
      (h.wf c = true → q.header = h) ∧
      q.version.toNat = h.version % 8 ∧ q.pktType.toNat = h.pktType % 2 ∧ q.secHdrFlag.toNat = h.secHdrFlag % 2 ∧
      q.apid.toNat = h.apid % 256 ∧ q.seqFlags.toNat = h.seqFlags % 4 ∧ q.seqCount.toNat = h.seqCount % 256 ∧
      q.length.toNat = h.length % 256 ∧ q.ccsdsFlag.toNat = h.ccsdsFlag % 2 ∧ q.pktVersion.toNat = h.pktVersion % 8 ∧
      q.ack.toNat = h.ack % 16 ∧ q.serviceType.toNat = h.serviceType % 256 ∧
      q.serviceSubType.toNat = h.serviceSubType % 256 ∧ q.srcDstId.toNat = h.srcDstId % 256 ∧
      q.subCounter.toNat = h.subCounter % 256 ∧
      q.ts = ⟨h.ts.day % 2 ^ c.tsWidths.day, h.ts.hour % 2 ^ c.tsWidths.hour, h.ts.minute % 2 ^ c.tsWidths.minute,
        h.ts.second % 2 ^ c.tsWidths.second⟩

/-- 40_codec.md section 4, inferred there from R133 and R135: for a frame with zero pad bits (R102), `ENCODE(DECODE(F))` has
the bytes [2,152) of `F`, and is `F` exactly when the received and the computed checksum are equal; and two frames that differ
only in pad bits decode to packets that differ only in the computed checksum. -/
def Obligations.EncodeInvertsDecodeOnZeroPads : Prop :=
  ∀ (c : Config) (F : Bytes) (q : Packet), c.layout = defaultLayout → c.tsWidths.sum = 16 → decodeFrame c F = some q →
    ((byteAt F 151).toNat % 8 = 0 → (byteAt F 149).toNat % 64 = 0 → byteAt F 147 = 0 →
      (encodeFrame c q.header q.payload).drop 2 = F.drop 2 ∧
      (encodeFrame c q.header q.payload = F ↔ q.recvChecksum = q.calcChecksum)) ∧
    ∀ F' : Bytes, F'.length = 152 →
      (∀ i < 152, i ≠ 147 → i ≠ 149 → i ≠ 151 → byteAt F' i = byteAt F i) →
      (byteAt F' 151).toNat / 8 = (byteAt F 151).toNat / 8 → (byteAt F' 149).toNat / 64 = (byteAt F 149).toNat / 64 →
      ∃ k, decodeFrame c F' = some { q with calcChecksum := k }

/-- R90, R107 to R109 and R137 for operations: the request that `encode` writes for a well-formed operation decodes to that
operation, for every operation and every configuration that meets the requirements. -/
def Obligations.DecodingInvertsEncodingOfOperations : Prop :=
  ∀ (c : Config) (i : Instr), c.wf = true → i.wf c = true → decode c (encode c i) = .ok i

/-! ### Selection (30_encoding.md) -/

/-- R107: the selector of a packet is its service type and subtype bytes, and each listed pair selects its operation and no
other; every pair with service type 70 selects `FDIR.FWD`; no other pair selects anything. -/
def Obligations.SelectorNamesOneOperation : Prop :=
  ∀ (p : Packet) (op : DispatchOp),
    dispatchOpOf (selector p) = some op ↔
      ((p.serviceType.toNat, p.serviceSubType.toNat), op) ∈
        [((1, 1), DispatchOp.tcvAccOk), ((1, 2), .tcvAccFail), ((1, 7), .tcvExeOk), ((1, 8), .tcvExeFail),
         ((3, 10), .hk10), ((3, 12), .hk12), ((3, 25), .hk25), ((3, 26), .hk26),
         ((5, 1), .evt1), ((5, 2), .evt2), ((5, 3), .evt3), ((5, 4), .evt4),
         ((6, 6), .mem6), ((6, 10), .mem10), ((9, 2), .time2), ((69, 4), .sched4)] ∨
      (p.serviceType.toNat = 70 ∧ op = .fdirFwd)

/-- R107 to R109 on a few words: selectors, port codes and sequence flags of the opcode table, written out, decode to their
operations (the operands the words do not give are the model's plain ones, log 3). -/
def Obligations.TableWordsDecode : Prop :=
  decodeTableWord 8 0x13 = some .bcast ∧ decodeTableWord 8 0x21 = some .tick ∧
  decodeTableWord 8 0x20 = some (.await .hk 0 0) ∧ decodeTableWord 8 0x12 = some (.ltSet 0 0 0 0) ∧
  decodeTableWord 8 0x05 = none ∧ decodeTableWord 16 0x0302 = none ∧
  (∃ p, decodeTableWord 16 0x0319 = some (.hk25 p) ∧ p.serviceType = 3 ∧ p.serviceSubType = 25) ∧
  (∃ p, decodeTableWord 16 0x4504 = some (.sched4 p) ∧ p.serviceType = 69 ∧ p.serviceSubType = 4) ∧
  ∃ p, decodeTableWord 2 0b10 = some (.seqLast .memDump 0 (List.replicate 137 0) p) ∧ p.seqFlags = 0b10

/-! ### The verifier (41_verifier.md) -/

/-- R150 to R158, with the whitelist of R155 and the memory fields of R103: the verdict is the reason of the first check that
fails, in the fixed order, and `Ok` when none fails; nothing else happens (R262). -/
def Obligations.VerifyReportsTheFirstFailure : Prop :=
  ∀ (p : Packet) (s : State), s.cfg.subtypeWl = defaultWhitelist → s.cfg.memFields = defaultMemFields →
    ∃ v : Verdict, exec (.verify p) s = .next (answered (.verdict v) s) ∧
      let svc := p.serviceType.toNat
      let sub := p.serviceSubType.toNat
      let memId := (byteAt p.payload 136).toNat
      let addr := (byteAt p.payload 135).toNat * 2 ^ 24 + (byteAt p.payload 134).toNat * 2 ^ 16 +
        (byteAt p.payload 133).toNat * 2 ^ 8 + (byteAt p.payload 132).toNat
      let length := p.length.toNat + 1 = 152
      let checksum := p.recvChecksum = p.calcChecksum
      let service := svc ∈ [1, 3, 5, 6, 9, 69]
      let subtype := (svc = 1 ∧ sub ∈ [1, 2, 7, 8]) ∨ (svc = 3 ∧ sub ∈ [10, 12, 25, 26]) ∨
        (svc = 5 ∧ sub ∈ [1, 2, 3, 4]) ∨ (svc = 6 ∧ sub ∈ [6, 10]) ∨ (svc = 9 ∧ sub = 2) ∨ (svc = 69 ∧ sub = 4)
      let apid := (svc = 3 → p.apid = s.cfg.expectedApid.hk) ∧ (svc = 6 → p.apid = s.cfg.expectedApid.mem) ∧
        (svc = 9 → p.apid = s.cfg.expectedApid.time) ∧ (svc = 69 → p.apid = s.cfg.expectedApid.sched)
      let memory := svc = 6 → memId ≤ 1 ∧ (memId = 1 → addr ≤ 0xFFFFF)
      let versions := p.version = 1 ∧ p.ccsdsFlag = 1 ∧ p.pktVersion = 1
      (¬length → v = .reject .lengthMismatch) ∧
      (length → ¬checksum → v = .reject .checksumMismatch) ∧
      (length → checksum → ¬service → v = .reject .unknownServiceType) ∧
      (length → checksum → service → ¬subtype → v = .reject .unknownSubType) ∧
      (length → checksum → service → subtype → ¬apid → v = .reject .invalidApid) ∧
      (length → checksum → service → subtype → apid → ¬memory → v = .reject .invalidMemoryAddress) ∧
      (length → checksum → service → subtype → apid → memory → ¬versions → v = .reject .versionMismatch) ∧
      (length → checksum → service → subtype → apid → memory → versions → v = .ok)

/-- 41_verifier.md section 3, inferred there from R151 to R158: two packets that differ only in fields no check reads get the
same verdict. -/
def Obligations.VerdictIgnoresUncheckedFields : Prop :=
  ∀ (c : Config) (p q : Packet), SameForVerify c p q → verifyPacket c p = verifyPacket c q

/-- R62: a frame whose byte 0 or byte 1 is 255 fails the verifier, whatever else it holds. -/
def Obligations.ChecksumByte255IsRejected : Prop :=
  ∀ (c : Config) (F : Bytes) (p : Packet), decodeFrame c F = some p → (byteAt F 0 = 255 ∨ byteAt F 1 = 255) →
    p.recvChecksum ≠ p.calcChecksum ∧ verifyPacket c p ≠ .ok

/-! ### The inbound pipeline (42_router.md) -/

/-- R172: a byte list of another length than 152 is archived and logged, and nothing else happens (that `FRAME` is not loaded
with it either is the model's reading of 'No state changes', log 7). -/
def Obligations.RxWrongLengthIsArchivedAndLogged : Prop :=
  ∀ (B : Bytes) (s : State), B.length ≠ 152 →
    exec (.rx B) s = .next { s with
      out := { s.out with archive := s.out.archive ++ [B], log := s.out.log ++ [.error .frameLengthError] } }

/-- R173 and R160: a frame that `VERIFY` rejects is archived and its reason logged; apart from the transient `FRAME` and
`PKT`, nothing changes and nothing is forwarded. -/
def Obligations.RxRejectedFrameIsDropped : Prop :=
  ∀ (B : Bytes) (s : State) (p : Packet) (r : ErrorName),
    decodeFrame s.cfg B = some p → verifyPacket s.cfg p = .reject r →
    exec (.rx B) s = .next { s with
      frame := B, pkt := p,
      out := { s.out with archive := s.out.archive ++ [B], log := s.out.log ++ [.error r] } }

/-- R171 and R174: a frame that passes `VERIFY` is archived, the success event is logged, and the step does what the dispatch
operation selected by the packet does, in the same step. -/
def Obligations.RxPerformsTheSelectedOperation : Prop :=
  ∀ (B : Bytes) (s : State) (p : Packet) (op : DispatchOp),
    decodeFrame s.cfg B = some p → verifyPacket s.cfg p = .ok → dispatchOpOf (selector p) = some op →
    ∃ t, exec (dispatchInstr op p) { s with
        frame := B, pkt := p,
        out := { s.out with archive := s.out.archive ++ [B], log := s.out.log ++ [.verifyOk] } } = .next t ∧
      exec (.rx B) s = .next t

/-- R153, R155, R174 and R198: a verified packet never selects `FDIR.FWD`, and under the whitelist of R155 it always selects
one of the other sixteen operations. -/
def Obligations.VerifiedPacketsNeverSelectFdir : Prop :=
  ∀ (c : Config) (p : Packet), verifyPacket c p = .ok →
    p.serviceType ≠ 70 ∧ dispatchOpOf (selector p) ≠ some .fdirFwd ∧
      (c.subtypeWl = defaultWhitelist → dispatchOpOf (selector p) ≠ none)

/-- R174 for a widened whitelist: a verified packet whose pair no row lists behaves as its branch says; one of service
type 6 or 69 whose pair the feed names (P16) is fed to that instance after the forward. -/
def Obligations.UnlistedPairsFollowTheirBranch : Prop :=
  ∀ (B : Bytes) (s : State) (p : Packet),
    decodeFrame s.cfg B = some p → verifyPacket s.cfg p = .ok → dispatchOpOf (selector p) = none →
    ∃ u : State, u = { s with
        frame := B, pkt := p,
        out := { s.out with archive := s.out.archive ++ [B], log := s.out.log ++ [.verifyOk] } } ∧
      (p.serviceType = 1 → exec (.rx B) s = .next u) ∧
      (p.serviceType = 3 → ∃ E, IsEnvelope s.cfg p E ∧ exec (.rx B) s = .next (forwarded .hk E u)) ∧
      (p.serviceType = 5 → p.serviceSubType.toNat ≤ 1 → exec (.rx B) s = .next (logged (.eventReport p) u)) ∧
      (p.serviceType = 5 → 1 < p.serviceSubType.toNat →
        ∃ E, IsAlert s.cfg.codes.eventAlert p.serviceSubType p E ∧
          exec (.rx B) s = .next (forwarded .fdir E (logged (.eventReport p) u))) ∧
      (p.serviceType = 6 → reasmOf s.cfg p = none →
        ∃ E, IsEnvelope s.cfg p E ∧ exec (.rx B) s = .next (forwarded .mem E u)) ∧
      (p.serviceType = 9 → exec (.rx B) s = exec (.time2 p) u) ∧
      (p.serviceType = 69 → reasmOf s.cfg p = none →
        ∃ E, IsEnvelope s.cfg p E ∧ exec (.rx B) s = .next (forwarded .sched E u)) ∧
      ∀ (k : Reasm) (j : Instr), reasmOf s.cfg p = some k → IsFeedOf s.cfg k p j →
        (p.serviceType = 6 → ∃ E t, IsEnvelope s.cfg p E ∧
          exec j (forwarded .mem E u) = .next t ∧ exec (.rx B) s = .next t) ∧
        (p.serviceType = 69 → ∃ E t, IsEnvelope s.cfg p E ∧
          exec j (forwarded .sched E u) = .next t ∧ exec (.rx B) s = .next t)

/-- R171 and 60_exceptions.md section 3: every `RX` step emits exactly one `ARCHIVE` event, as its first `LOG` event either
`VerifyOk` or one error, and at most one alert; the input event is never refused. -/
def Obligations.RxEmitsOneArchiveAndAtMostOneAlert : Prop :=
  ∀ (B : Bytes) (s : State), ∃ (t : State) (e : LogEvent) (rest : List LogEvent), exec (.rx B) s = .next t ∧
    t.out.archive = s.out.archive ++ [B] ∧
    t.out.log = s.out.log ++ e :: rest ∧ (e = .verifyOk ∨ ∃ r, e = .error r ∧ rest = []) ∧
    ∃ l : List Bytes, t.out.fwd.get .fdir = s.out.fwd.get .fdir ++ l ∧ l.length ≤ 1

/-! ### The dispatch operations (42_router.md) -/

/-- R184 to R187: each housekeeping operation forwards the envelope of its packet to the HK consumer, with the subtype in byte
146 and 0 in byte 145, and does nothing else. -/
def Obligations.HousekeepingIsForwarded : Prop :=
  ∀ (p : Packet) (s : State) (i : Instr) (n : Byte),
    (i, n) ∈ [(Instr.hk10 p, 10), (.hk12 p, 12), (.hk25 p, 25), (.hk26 p, 26)] →
    p.serviceType = 3 → p.serviceSubType = n →
    ∃ E, IsEnvelope s.cfg p E ∧ byteAt E 146 = n ∧ byteAt E 145 = 0 ∧ exec i s = .next (forwarded .hk E s)

/-- R198: `FDIR.FWD` forwards the envelope of its packet to the FDIR consumer, whatever its subtype, and does nothing else. -/
def Obligations.FdirPacketIsForwarded : Prop :=
  ∀ (p : Packet) (s : State), ∃ E, IsEnvelope s.cfg p E ∧ exec (.fdirFwd p) s = .next (forwarded .fdir E s)

/-- R188: an event report of the normal class is logged, and nothing else happens. -/
def Obligations.NormalEventIsLogged : Prop :=
  ∀ (p : Packet) (s : State), exec (.evt1 p) s = .next (logged (.eventReport p) s)

/-- R189 to R191: an event report of subtype 2, 3 or 4 is logged, an alert with its subtype goes to FDIR, and nothing else
happens. -/
def Obligations.FailureEventAlertsFdir : Prop :=
  ∀ (p : Packet) (s : State) (i : Instr) (n : Byte), (i, n) ∈ [(Instr.evt2 p, 2), (.evt3 p, 3), (.evt4 p, 4)] →
    ∃ E, IsAlert s.cfg.codes.eventAlert n p E ∧
      exec i s = .next (forwarded .fdir E (logged (.eventReport p) s))

/-- R180 and R182: a failure report is logged with its subtype and FDIR is alerted; no state is written and no gate is
signalled. -/
def Obligations.FailureReportAlertsFdir : Prop :=
  ∀ (p : Packet) (s : State) (i : Instr) (n : Byte), (i, n) ∈ [(Instr.tcvAccFail p, 2), (.tcvExeFail p, 8)] →
    p.serviceSubType = n →
    ∃ E, IsAlert s.cfg.codes.tcVerifyFailed n p E ∧
      exec i s = .next (forwarded .fdir E (logged (.tcVerifyFailure n) s))

/-- R179 and R181 when the report does not end a wait (R243): the flags and the ids of the destination service are written,
and nothing else happens; an acceptance report leaves `executeReceived` as it is. -/
def Obligations.SuccessReportSetsTheFlags : Prop :=
  ∀ (p : Packet) (s : State) (sv : Service) (i : Instr) (completion : Bool),
    (i, completion) ∈ [(Instr.tcvAccOk p, false), (.tcvExeOk p, true)] →
    s.cfg.tcvFields = defaultTcvFields → serviceOfApid s.cfg (byteAt p.payload 135) = some sv →
    ((s.gate.get sv).waiting = false ∨
      ((s.gate.get sv).twoPhase = true ∧ completion = false ∧ (s.tcv.get sv).executeReceived = false)) →
    ∃ t : TcvState, t.acceptReceived = true ∧
      (t.executeReceived = true ↔ completion = true ∨ (s.tcv.get sv).executeReceived = true) ∧
      t.packetID.toNat = (byteAt p.payload 136).toNat * 256 + (byteAt p.payload 135).toNat ∧
      t.PSC.toNat = (byteAt p.payload 134).toNat * 256 + (byteAt p.payload 133).toNat ∧
      exec i s = .next { s with tcv := s.tcv.set sv t }

/-- R179, R181, R243 and R244 when the report ends a wait: the ids are written, both flags are clear again, the cell no longer
waits, the success is logged with the operation code and `RESULT[s](ok)` is emitted, all in the same step. -/
def Obligations.SuccessReportEndsTheWait : Prop :=
  ∀ (p : Packet) (s : State) (sv : Service) (i : Instr) (completion : Bool),
    (i, completion) ∈ [(Instr.tcvAccOk p, false), (.tcvExeOk p, true)] →
    s.cfg.tcvFields = defaultTcvFields → serviceOfApid s.cfg (byteAt p.payload 135) = some sv →
    (s.gate.get sv).waiting = true →
    ((s.gate.get sv).twoPhase = false ∨ completion = true ∨ (s.tcv.get sv).executeReceived = true) →
    ∃ pid psc : Word16,
      pid.toNat = (byteAt p.payload 136).toNat * 256 + (byteAt p.payload 135).toNat ∧
      psc.toNat = (byteAt p.payload 134).toNat * 256 + (byteAt p.payload 133).toNat ∧
      exec i s = .next { s with
        tcv := s.tcv.set sv ⟨false, false, pid, psc⟩
        gate := s.gate.set sv { s.gate.get sv with waiting := false }
        out := { s.out with
          log := s.out.log ++ [.verifySuccess (s.gate.get sv).opcode]
          result := s.out.result.set sv (s.out.result.get sv ++ [.ok]) } }

/-- R183: a success report whose destination names no service is logged as an error, and nothing else happens. -/
def Obligations.UnknownDestinationIsLogged : Prop :=
  ∀ (p : Packet) (s : State) (i : Instr), i ∈ [Instr.tcvAccOk p, .tcvExeOk p] →
    s.cfg.tcvFields = defaultTcvFields → serviceOfApid s.cfg (byteAt p.payload 135) = none →
    exec i s = .next (logged (.error .unknownVerifyDestination) s)

/-- R192, R193 and R195 under any feed (P16) and slice (P14) that feed an instance with the operation's pair: the envelope is
forwarded to the consumer of the service type, and the fragment is given in the same step to the reassembler operation the
sequence flags select (R108). Under the default feed a memory dump feeds `MEMDUMP` and a schedule report `SCHEDREPORT`; under
the default slice the fragment is the whole payload (R221). -/
def Obligations.FragmentsAreForwardedAndFed : Prop :=
  (∀ (p : Packet) (s : State) (i j : Instr) (c : Consumer) (k : Reasm),
    ((i = .mem6 p ∧ c = .mem ∧ p.serviceType = 6 ∧ p.serviceSubType = 6) ∨
      (i = .mem10 p ∧ c = .mem ∧ p.serviceType = 6 ∧ p.serviceSubType = 10) ∨
      (i = .sched4 p ∧ c = .sched ∧ p.serviceType = 69 ∧ p.serviceSubType = 4)) →
    reasmOf s.cfg p = some k → IsFeedOf s.cfg k p j →
    ∃ E t, IsEnvelope s.cfg p E ∧ exec j (forwarded c E s) = .next t ∧ exec i s = .next t) ∧
  ∀ (c : Config) (p : Packet),
    (c.reasmFeed = defaultFeed →
      (p.serviceType = 6 → p.serviceSubType = 6 → reasmOf c p = some .memDump) ∧
      (p.serviceType = 69 → p.serviceSubType = 4 → reasmOf c p = some .schedReport)) ∧
    (c.fragSlice = defaultFragSlice → p.payload.length = 137 →
      c.fragSlice.map (fun i => byteAt p.payload i.val) = p.payload)

/-- R193, and R192 and R195 under a feed (P16) that names no instance for their pair: the report is forwarded to its consumer
and nothing else happens; no reassembler is fed, whatever the sequence flags say. The default feed names none for the pair of a
memory check report. -/
def Obligations.MemoryCheckIsForwardedOnly : Prop :=
  ∀ (p : Packet) (s : State),
    (s.cfg.reasmFeed = defaultFeed → p.serviceType = 6 → p.serviceSubType = 10 → reasmOf s.cfg p = none) ∧
    ∀ (i : Instr) (c : Consumer),
      ((i = .mem10 p ∧ c = .mem ∧ p.serviceType = 6 ∧ p.serviceSubType = 10) ∨
        (i = .mem6 p ∧ c = .mem ∧ p.serviceType = 6 ∧ p.serviceSubType = 6) ∨
        (i = .sched4 p ∧ c = .sched ∧ p.serviceType = 69 ∧ p.serviceSubType = 4)) →
      reasmOf s.cfg p = none →
      ∃ E, IsEnvelope s.cfg p E ∧ exec i s = .next (forwarded c E s)

/-- R194 and R196: a time report more than 90 minutes away from the local time, in either direction, is adopted; the previous
value is retained, one alert goes to FDIR and, where the policy broadcasts writes (P19), the new time once to every member of
`SERVICES` and to no other; within 90 minutes nothing happens. -/
def Obligations.TimeReportIsAdoptedBeyondNinetyMinutes : Prop :=
  ∀ (p : Packet) (s : State) (delta : Int),
    s.cfg.services.Nodup → p.ts.fits s.cfg.ltWidths = true →
    delta = ((p.ts.day : Int) * 1440 + p.ts.hour * 60 + p.ts.minute) -
      ((s.lt.day : Int) * 1440 + s.lt.hour * 60 + s.lt.minute) →
    ((delta > 90 ∨ delta < -90) →
      ∃ (E : Bytes) (b : PerService (List Time)), IsAlert s.cfg.codes.timeOutOfSync 0 p E ∧
        exec (.time2 p) s = .next { s with
          lt := p.ts, prevLt := s.lt, prevValid := true,
          out := { s.out with fwd := s.out.fwd.set .fdir (s.out.fwd.get .fdir ++ [E]), bcast := b } } ∧
        ∀ sv, b.get sv = s.out.bcast.get sv ++
          (if sv ∈ s.cfg.services ∧ s.cfg.bcastPolicy.onWrite = true then [p.ts] else [])) ∧
    (-90 ≤ delta → delta ≤ 90 → exec (.time2 p) s = .next s)

/-! ### The packetizer and the local time (42_router.md) -/

/-- R201: a `TC` request whose `numPackets` is not 1 to 255, or is not the number of frames its data needs, is refused. -/
def Obligations.TcOutsidePreconditionIsRefused : Prop :=
  ∀ (sender dest svc sub k : Byte) (n : Nat) (appData : Bytes) (s : State),
    ¬(1 ≤ n ∧ n ≤ 255 ∧ appData.length ≤ 137 * n ∧ (n = 1 ∨ 137 * (n - 1) < appData.length)) →
    exec (.tc sender dest svc sub k n appData) s = .refused .tcNotAdmitted

/-- R202 to R206: an admitted `TC` emits `numPackets` frames and does nothing else; frame `i` is the encoding of the header
and of the zero-padded piece of the data that the rules give it. -/
def Obligations.TcEmitsItsFrames : Prop :=
  ∀ (sender dest svc sub k : Byte) (n : Nat) (appData : Bytes) (s : State),
    1 ≤ n → n ≤ 255 → appData.length ≤ 137 * n → (n = 1 ∨ 137 * (n - 1) < appData.length) → s.cfg.typeTc = 1 →
    ∃ Fs : List Bytes, Fs.length = n ∧
      exec (.tc sender dest svc sub k n appData) s = .next { s with
        out := { s.out with linkTx := s.out.linkTx ++ Fs } } ∧
      ∀ i < n, ∃ (piece : Bytes) (flags : Nat), piece.length = 137 ∧
        (∀ j < 137, byteAt piece j = if 137 * i + j < appData.length then byteAt appData (137 * i + j) else 0) ∧
        (n = 1 → flags = 0b11) ∧ (1 < n → i = 0 → flags = 0b01) ∧ (1 < n → i = n - 1 → flags = 0b10) ∧
        (0 < i → i < n - 1 → flags = 0b00) ∧
        Fs[i]? = some (encodeFrame s.cfg
          { version := 1, pktType := 1, secHdrFlag := 1, apid := sender.toNat, seqFlags := flags, seqCount := i + 1,
            length := 151, ccsdsFlag := 1, pktVersion := 1, ack := s.cfg.tcAck.toNat, serviceType := svc.toNat,
            serviceSubType := sub.toNat, srcDstId := dest.toNat, subCounter := k.toNat, ts := s.lt } piece)

/-- From R202, R203 and R137: the frames of a `TC` decode, their sequence counts run from 1, and their payloads one after the
other are the application data followed by zeros. -/
def Obligations.TcFramesCarryTheWholeData : Prop :=
  ∀ (sender dest svc sub k : Byte) (n : Nat) (appData : Bytes) (s t : State), s.cfg.wf = true →
    exec (.tc sender dest svc sub k n appData) s = .next t →
    ∃ (Fs : List Bytes) (qs : List Packet), t.out.linkTx = s.out.linkTx ++ Fs ∧
      Fs.map (decodeFrame s.cfg) = qs.map some ∧
      (∀ q ∈ qs, q.recvChecksum = q.calcChecksum ∧ q.length.toNat + 1 = 152) ∧
      qs.map (fun q => q.seqCount.toNat) = (List.range n).map (· + 1) ∧
      (qs.map Packet.payload).flatten = appData ++ List.replicate (137 * n - appData.length) 0

/-- R207: `LT_SET` writes the four components reduced to the widths of the registers (P17; 16, 8, 8 and 8 bits by default),
leaves `PREV_LT` and `PREV_VALID`, and, where the policy broadcasts writes (P19), sends the new time once to every member of
`SERVICES` and to no other. -/
def Obligations.LtSetWritesAndBroadcasts : Prop :=
  ∀ (d h m sec : Nat) (s : State) (t : Time) (w : TimeWidths), s.cfg.services.Nodup → w = s.cfg.ltWidths →
    t = ⟨d % 2 ^ w.day, h % 2 ^ w.hour, m % 2 ^ w.minute, sec % 2 ^ w.second⟩ →
    (∃ b : PerService (List Time),
      exec (.ltSet d h m sec) s = .next { s with lt := t, out := { s.out with bcast := b } } ∧
      ∀ sv, b.get sv = s.out.bcast.get sv ++
        (if sv ∈ s.cfg.services ∧ s.cfg.bcastPolicy.onWrite = true then [t] else [])) ∧
    (w = defaultLtWidths → t = ⟨d % 65536, h % 256, m % 256, sec % 256⟩)

/-- R208: `BCAST` sends the local time to every member of `SERVICES`, once each, and to no other, where the policy broadcasts on
request (P19), and writes no state. -/
def Obligations.BcastSendsTheLocalTime : Prop :=
  ∀ (s : State), s.cfg.services.Nodup →
    ∃ b : PerService (List Time), exec .bcast s = .next { s with out := { s.out with bcast := b } } ∧
      ∀ sv, b.get sv = s.out.bcast.get sv ++
        (if sv ∈ s.cfg.services ∧ s.cfg.bcastPolicy.onRequest = true then [s.lt] else [])

/-! ### The reassembler (43_reassembler.md) -/

/-- R222: `SEQ.FIRST` from `Idle` opens a session with its count and its fragment, and does nothing else. -/
def Obligations.FirstOpensASession : Prop :=
  ∀ (k : Reasm) (c : Byte) (frag : Bytes) (src : Packet) (s : State), (s.rs.get k).phase = .idle →
    exec (.seqFirst k c frag src) s = .next { s with
      rs := s.rs.set k ⟨.collecting, c, c, (s.rs.get k).expectedTotalPackets, frag⟩ }

/-- R223 and R227: `SEQ.STANDALONE` from `Idle` gives its fragment to the sink and leaves the session in `Idle` with reset
values, in one step. -/
def Obligations.StandaloneFlushesItsFragment : Prop :=
  ∀ (k : Reasm) (c : Byte) (frag : Bytes) (src : Packet) (s : State), (s.rs.get k).phase = .idle →
    exec (.seqStandalone k c frag src) s = .next { s with
      rs := s.rs.set k ⟨.idle, 0, 0, (s.rs.get k).expectedTotalPackets, []⟩
      out := { s.out with sink := s.out.sink.set k (s.out.sink.get k ++ [frag]) } }

/-- R224, R225 and R227 for a fragment whose count is greater than the last, compared as naturals: `SEQ.CONT` appends it and
goes on collecting; `SEQ.LAST` appends it, gives the whole buffer to the sink and leaves the session in `Idle`. -/
def Obligations.LaterFragmentsAreAppended : Prop :=
  ∀ (k : Reasm) (c : Byte) (frag : Bytes) (src : Packet) (s : State), (s.rs.get k).phase = .collecting →
    (s.rs.get k).lastSequenceCount.toNat < c.toNat →
    exec (.seqCont k c frag src) s = .next { s with
      rs := s.rs.set k { s.rs.get k with lastSequenceCount := c, buffer := (s.rs.get k).buffer ++ frag } } ∧
    exec (.seqLast k c frag src) s = .next { s with
      rs := s.rs.set k ⟨.idle, 0, 0, (s.rs.get k).expectedTotalPackets, []⟩
      out := { s.out with sink := s.out.sink.set k (s.out.sink.get k ++ [(s.rs.get k).buffer ++ frag]) } }

/-- R226, for every violating combination of the rules R222 to R225: the session is discarded, one alert with the instance
number goes to FDIR, nothing goes to the sink, and nothing else happens. -/
def Obligations.ViolationDiscardsTheSession : Prop :=
  ∀ (k : Reasm) (c : Byte) (frag : Bytes) (src : Packet) (s : State) (i : Instr),
    ((i = .seqFirst k c frag src ∧ (s.rs.get k).phase ≠ .idle) ∨
      (i = .seqStandalone k c frag src ∧ (s.rs.get k).phase ≠ .idle) ∨
      ((i = .seqCont k c frag src ∨ i = .seqLast k c frag src) ∧
        ((s.rs.get k).phase ≠ .collecting ∨ c.toNat ≤ (s.rs.get k).lastSequenceCount.toNat))) →
    ∃ E, IsAlert s.cfg.codes.seqPacketRejected (match k with | .memDump => 0 | .schedReport => 1) src E ∧
      exec i s = .next { s with
        rs := s.rs.set k ⟨.idle, 0, 0, (s.rs.get k).expectedTotalPackets, []⟩
        out := { s.out with fwd := s.out.fwd.set .fdir (s.out.fwd.get .fdir ++ [E]) } }

/-- The four-fragment property of 43_reassembler.md section 2 for any length and with gaps: a `FIRST`, any number of
`CONTINUATION`s and a `LAST` with strictly increasing counts, from `Idle`, give the sink exactly one event with the fragments
in arrival order, leave the session in `Idle` and change nothing else. -/
def Obligations.TransferIsReassembled : Prop :=
  ∀ (k : Reasm) (src : Packet) (s : State) (first last : Byte × Bytes) (conts : List (Byte × Bytes)),
    (s.rs.get k).phase = .idle →
    ((first :: conts ++ [last]).map fun f => f.1.toNat).Pairwise (· < ·) →
    execAll (.seqFirst k first.1 first.2 src :: conts.map (fun f => .seqCont k f.1 f.2 src) ++
        [.seqLast k last.1 last.2 src]) s =
      .next { s with
        rs := s.rs.set k ⟨.idle, 0, 0, (s.rs.get k).expectedTotalPackets, []⟩
        out := { s.out with
          sink := s.out.sink.set k (s.out.sink.get k ++ [((first :: conts ++ [last]).map Prod.snd).flatten]) } }

/-- 43_reassembler.md section 4, inferred there from R220: an operation on one instance leaves the session and the sink of the
other alone. -/
def Obligations.SessionsAreIndependent : Prop :=
  ∀ (k k' : Reasm) (c : Byte) (frag : Bytes) (src : Packet) (s t : State) (i : Instr), k ≠ k' →
    i ∈ [Instr.seqFirst k c frag src, .seqStandalone k c frag src, .seqCont k c frag src, .seqLast k c frag src] →
    exec i s = .next t →
    t.rs.get k' = s.rs.get k' ∧ t.out.sink.get k' = s.out.sink.get k' ∧
      ∀ n, readByte t.spaces (.rbuf k') n = readByte s.spaces (.rbuf k') n

/-! ### The gate (44_gate.md) -/

/-- R242 and R247: an `AWAIT` on a free cell loads the cell; if the flags already satisfy it, it succeeds in its own step and
clears both flags (R244); else with timeout 0 it fails in its own step with one alert (R246); else the cell waits. -/
def Obligations.AwaitArmsOrResolves : Prop :=
  ∀ (sv : Service) (timeout : Nat) (op : Byte) (s : State) (sat : Prop) (g : GateCell),
    sv ∈ s.cfg.services → timeout < 2 ^ s.cfg.timerWidth → (s.gate.get sv).waiting = false →
    g = ⟨false, timeout, 0, op, decide (op ∈ s.cfg.twoPhase)⟩ →
    (sat ↔ (s.tcv.get sv).acceptReceived = true ∧ (op ∈ s.cfg.twoPhase → (s.tcv.get sv).executeReceived = true)) →
    (sat → exec (.await sv timeout op) s = .next { s with
      tcv := s.tcv.set sv ⟨false, false, (s.tcv.get sv).packetID, (s.tcv.get sv).PSC⟩
      gate := s.gate.set sv g
      out := { s.out with
        log := s.out.log ++ [.verifySuccess op]
        result := s.out.result.set sv (s.out.result.get sv ++ [.ok]) } }) ∧
    (¬sat → timeout = 0 → ∃ E, IsBareAlert op E ∧ exec (.await sv timeout op) s = .next { s with
      gate := s.gate.set sv g
      out := { s.out with
        log := s.out.log ++ [.verificationTimeout op]
        fwd := s.out.fwd.set .fdir (s.out.fwd.get .fdir ++ [E])
        result := s.out.result.set sv (s.out.result.get sv ++ [.fail]) } }) ∧
    (¬sat → 0 < timeout → exec (.await sv timeout op) s = .next { s with
      gate := s.gate.set sv { g with waiting := true } })

/-- R248: a second `AWAIT` before the first resolves is refused; so, by the model's reading of R242's operand list (log 6), is an
`AWAIT` of a service that is no member or with a timeout beyond the register. -/
def Obligations.SecondAwaitIsRefused : Prop :=
  ∀ (sv : Service) (timeout : Nat) (op : Byte) (s : State),
    ((s.gate.get sv).waiting = true ∨ sv ∉ s.cfg.services ∨ 2 ^ s.cfg.timerWidth ≤ timeout) →
    ∃ r, exec (.await sv timeout op) s = .refused r ∧
      (sv ∈ s.cfg.services → timeout < 2 ^ s.cfg.timerWidth → r = .awaitWhileWaiting)

/-- R245 and R246: one `TICK` counts in every waiting cell of a service and times out exactly the cells whose count has
reached their timeout, each with one log entry, one alert and one `RESULT[s](fail)`, in the order of `SERVICES`; nothing else
changes. -/
def Obligations.TickAdvancesTheWaitingCells : Prop :=
  ∀ (s : State) (expired : List Service), s.cfg.services.Nodup →
    expired = s.cfg.services.filter (fun sv => (s.gate.get sv).waiting &&
      decide ((s.gate.get sv).timeout ≤ (s.gate.get sv).elapsed + 1)) →
    ∃ (gate : PerService GateCell) (result : PerService (List GateResult)) (alerts : List Bytes),
      exec .tick s = .next { s with
        gate := gate
        out := { s.out with
          log := s.out.log ++ expired.map fun sv => .verificationTimeout (s.gate.get sv).opcode
          fwd := s.out.fwd.set .fdir (s.out.fwd.get .fdir ++ alerts)
          result := result } } ∧
      List.Forall₂ (fun sv E => IsBareAlert (s.gate.get sv).opcode E) expired alerts ∧
      ∀ sv, result.get sv = s.out.result.get sv ++ (if sv ∈ expired then [.fail] else []) ∧
        gate.get sv = if sv ∈ s.cfg.services ∧ (s.gate.get sv).waiting = true then
          { s.gate.get sv with elapsed := (s.gate.get sv).elapsed + 1, waiting := decide (sv ∉ expired) } else s.gate.get sv

/-- R247: with `timeout = n > 0` and no report, an `AWAIT` waits through the first `n - 1` `TICK`s with nothing on `RESULT[s]`
and the `n`-th `TICK` resolves it as a timeout, with exactly one `RESULT[s](fail)`. -/
def Obligations.WaitTimesOutAtTheNthTick : Prop :=
  ∀ (sv : Service) (n : Nat) (op : Byte) (s t : State),
    s.cfg.services.Nodup → exec (.await sv n op) s = .next t → (t.gate.get sv).waiting = true →
    (∀ k < n, ∃ u, ticks k t = .next u ∧ (u.gate.get sv).waiting = true ∧ (u.gate.get sv).elapsed = k ∧
      u.out.result.get sv = s.out.result.get sv ∧ u.tcv = s.tcv) ∧
    ∃ u, ticks n t = .next u ∧ (u.gate.get sv).waiting = false ∧
      u.out.result.get sv = s.out.result.get sv ++ [.fail] ∧ u.tcv = s.tcv

/-- The lifecycle view of R250 over every operation, C7: a service that awaits acceptance goes on doing so, awaits execution, has
timed out, or ends at `Executed` when its wait is two-phase and at `Accepted` when it is not; one that awaits execution goes on,
ends at `Executed` or has timed out; an `AWAIT` brings a service that does not wait to the place its flags give it; and no other
operation moves the view of a service that does not wait. -/
def Obligations.LifecycleFollowsTheChain : Prop :=
  ∀ (i : Instr) (s t : State) (sv : Service), exec i s = .next t →
    (lifecycle s sv = some .awaitingAccept → lifecycle t sv ∈
      [some .awaitingAccept, some .awaitingExecute, some .timedOut,
        if (s.gate.get sv).twoPhase = true then some .executed else some .accepted]) ∧
    (lifecycle s sv = some .awaitingExecute → lifecycle t sv ∈
      [some .awaitingExecute, some .executed, some .timedOut]) ∧
    ((s.gate.get sv).waiting = false → (∀ n op, i ≠ .await sv n op) → lifecycle t sv = lifecycle s sv) ∧
    ∀ n op, i = .await sv n op → lifecycle t sv =
      if (s.tcv.get sv).acceptReceived = true ∧ (op ∈ s.cfg.twoPhase → (s.tcv.get sv).executeReceived = true) then
        (if op ∈ s.cfg.twoPhase then some .executed else some .accepted)
      else if n = 0 then some .timedOut
      else if (s.tcv.get sv).acceptReceived = true then some .awaitingExecute else some .awaitingAccept

/-! ### Steps, reset and configuration -/

/-- R68 and R269: a step performs the operation of the next request, in the state from which that request has been taken and in
which the configuration is fixed (log 12). A frame is a delivery: the link's is the `RX` of that frame, so that a dispatch
operation runs nowhere but inside `RX` (R174), and another agent's is refused. The words of a port or of a fragment are the
operation they decode to: performed for the agent that may issue it, refused for another (R279); words that decode to no
operation are refused (R17's word; which words decode is log 19). Without an input event the step changes nothing (log 8). Who
may issue what is R279's table: only the link `RX`, only service `s` `AWAIT(s, ...)`, any member of `SERVICES` `TC`, only the
time base `TICK`, only the host `LT_SET` and `BCAST`; that a component calls the pure functions is log 2, that the services are
the members of `SERVICES` is log 15, and nobody requests a dispatch or a reassembler operation by itself (R174, R233). -/
def Obligations.StepPerformsTheNextRequest : Prop :=
  (∀ (s u : State) (a : Agent) (w : Words) (rest : List InputEvent),
    s.inbox = .request ⟨a, w⟩ :: rest → u = { s with inbox := rest, booted := true } →
    (∀ F, w = .frame152 F →
      (a = .link → step s = exec (.rx F) u) ∧ (a ≠ .link → step s = .refused .wrongAgent)) ∧
    ((∀ F, w ≠ .frame152 F) →
      (∀ i, decode s.cfg w = .ok i →
        (permits s.cfg a i = true → step s = exec i u) ∧
        (permits s.cfg a i = false → step s = .refused .wrongAgent)) ∧
      ∀ e, decode s.cfg w = .error e → step s = .refused (.undecodable e))) ∧
  (∀ s : State, s.inbox = [] → step s = .next s) ∧
  ∀ (c : Config) (a : Agent),
    (∀ B, permits c a (.rx B) = true ↔ a = .link) ∧
    (∀ sv n op, permits c a (.await sv n op) = true ↔ a = .service sv) ∧
    (∀ x d svc sub k n ap, permits c a (.tc x d svc sub k n ap) = true ↔ ∃ sv ∈ c.services, a = .service sv) ∧
    (permits c a .tick = true ↔ a = .timeBase) ∧
    (∀ d h m sec, permits c a (.ltSet d h m sec) = true ↔ a = .host) ∧ (permits c a .bcast = true ↔ a = .host) ∧
    (∀ d o n, permits c a (.fletcher16 d o n) = true ↔ a = .component) ∧
    (∀ h p, permits c a (.encode h p) = true ↔ a = .component) ∧
    (∀ B, permits c a (.decode B) = true ↔ a = .component) ∧
    (∀ p, permits c a (.verify p) = true ↔ a = .component) ∧
    (∀ op p, permits c a (dispatchInstr op p) = false) ∧
    ∀ k n f p, permits c a (.seqFirst k n f p) = false ∧ permits c a (.seqStandalone k n f p) = false ∧
      permits c a (.seqCont k n f p) = false ∧ permits c a (.seqLast k n f p) = false

/-- R300 and R301: asserting the reset gives every state element its reset value at once, without any output event; the
configuration and the environment's own events stay (log 13). -/
def Obligations.ResetClearsTheState : Prop :=
  ∀ (s : State) (rest : List InputEvent), s.inbox = .reset :: rest →
    ∃ t, step s = .next t ∧ t.lt = ⟨0, 0, 0, 0⟩ ∧ t.prevLt = ⟨0, 0, 0, 0⟩ ∧ t.prevValid = false ∧
      (∀ sv, t.tcv.get sv = ⟨false, false, 0, 0⟩ ∧ t.gate.get sv = ⟨false, 0, 0, 0, false⟩ ∧
        t.out.result.get sv = [] ∧ t.out.bcast.get sv = []) ∧
      (∀ k, t.rs.get k = ⟨.idle, 0, 0, 0, []⟩ ∧ t.out.sink.get k = []) ∧
      (∀ c, t.out.fwd.get c = []) ∧ t.out.archive = [] ∧ t.out.log = [] ∧ t.out.linkTx = [] ∧
      t.cfg = s.cfg ∧ t.inbox = rest

/-- R303 and R279 say that the configuration is loaded once, before the first operation, with values that meet the requirements,
and never changes after. What the model does with such a load: the configuration is written, the banks get a reset entry for
every member of its `SERVICES`, the configuration is fixed, and nothing else changes. That every other load is refused, the
second one, one after the first operation and an ill-formed one, is the model's choice (log 12, all three). -/
def Obligations.ConfigurationLoadsOnlyAtBoot : Prop :=
  ∀ (s : State) (c : Config) (rest : List InputEvent), s.inbox = .loadConfig c :: rest →
    (s.booted = false → c.wf = true → ∃ t, step s = .next t ∧ t.booted = true ∧ t = { s with
        cfg := c
        inbox := rest
        booted := true
        tcv := .fresh c.services ⟨false, false, 0, 0⟩
        gate := .fresh c.services ⟨false, 0, 0, 0, false⟩
        out := { s.out with result := .fresh c.services [], bcast := .fresh c.services [] } } ∧
      ∀ c' rest', step { t with inbox := .loadConfig c' :: rest' } = .refused .configFixed) ∧
    (s.booted = true → step s = .refused .configFixed) ∧
    (s.booted = false → c.wf = false → step s = .refused .configIllFormed)

/-! ### Whole-machine rules -/

/-- R30: no operation changes the configuration; nor does one touch the model's own schedule and boot bit (logs 2, 12). -/
def Obligations.OperationsKeepTheConfiguration : Prop :=
  ∀ (i : Instr) (s t : State), exec i s = .next t → t.cfg = s.cfg ∧ t.inbox = s.inbox ∧ t.booted = s.booted

/-- R76 and R31: only `RX`, `TCV.ACC_OK` and `TCV.EXE_OK` set a flag of a verification entry or write its ids, and an entry
whose flag an operation clears belongs to a gate cell whose `RESULT[s](ok)` the same operation emits. -/
def Obligations.OnlyReportsSetTheFlags : Prop :=
  ∀ (i : Instr) (s t : State) (sv : Service), exec i s = .next t →
    ((∀ B, i ≠ .rx B) → (∀ p, i ≠ .tcvAccOk p) → (∀ p, i ≠ .tcvExeOk p) →
      ((t.tcv.get sv).acceptReceived = true → (s.tcv.get sv).acceptReceived = true) ∧
      ((t.tcv.get sv).executeReceived = true → (s.tcv.get sv).executeReceived = true) ∧
      (t.tcv.get sv).packetID = (s.tcv.get sv).packetID ∧ (t.tcv.get sv).PSC = (s.tcv.get sv).PSC) ∧
    (((s.tcv.get sv).acceptReceived = true ∧ (t.tcv.get sv).acceptReceived = false) ∨
        ((s.tcv.get sv).executeReceived = true ∧ (t.tcv.get sv).executeReceived = false) →
      t.out.result.get sv = s.out.result.get sv ++ [.ok] ∧ (t.gate.get sv).waiting = false)

/-- R28 and R29: only `RX`, `TIME.2` and `LT_SET` change `LT`, and only `RX` and `TIME.2` change `PREV_LT` and `PREV_VALID`;
`PREV_VALID` is never cleared; when `PREV_VALID` or `PREV_LT` changes, `PREV_LT` is the old `LT`. -/
def Obligations.LocalTimeHasItsWriters : Prop :=
  ∀ (i : Instr) (s t : State), exec i s = .next t →
    ((∀ B, i ≠ .rx B) → (∀ p, i ≠ .time2 p) → t.prevLt = s.prevLt ∧ t.prevValid = s.prevValid ∧
      ((∀ d h m sec, i ≠ .ltSet d h m sec) → t.lt = s.lt)) ∧
    (s.prevValid = true → t.prevValid = true) ∧
    ((t.prevValid ≠ s.prevValid ∨ t.prevLt ≠ s.prevLt) → t.prevLt = s.lt ∧ t.prevValid = true)

/-- R21, R25 and R37, byte by byte: only `RX` writes `FRAME`, only `RX` and `DECODE` write `PAYLOAD` and the other `PKT`
registers, only the reassembler operations and the operations that feed them write `RBUF[k]` and the sessions; and after an `RX`
of 152 bytes the frame latch reads as those bytes. -/
def Obligations.BuffersHaveTheirWriters : Prop :=
  ∀ (i : Instr) (s t : State) (n : Nat), exec i s = .next t →
    ((∀ B, i ≠ .rx B) → readByte t.spaces .frame n = readByte s.spaces .frame n) ∧
    (∀ B, i = .rx B → B.length = 152 → readByte t.spaces .frame n = B[n]?) ∧
    ((∀ B, i ≠ .rx B) → (∀ B, i ≠ .decode B) → readByte t.spaces .payload n = readByte s.spaces .payload n ∧ t.pkt = s.pkt) ∧
    ((∀ B, i ≠ .rx B) → (∀ p, i ≠ .mem6 p) → (∀ p, i ≠ .mem10 p) → (∀ p, i ≠ .sched4 p) →
      (∀ k c f p, i ≠ .seqFirst k c f p) → (∀ k c f p, i ≠ .seqStandalone k c f p) →
      (∀ k c f p, i ≠ .seqCont k c f p) → (∀ k c f p, i ≠ .seqLast k c f p) →
      t.rs = s.rs ∧ ∀ k, readByte t.spaces (.rbuf k) n = readByte s.spaces (.rbuf k) n)

/-- R174 and R233: a reassembly session changes only by the reset and by the delivery of a frame that decodes, passes `VERIFY`
and has a pair that the feed names for that instance. -/
def Obligations.SessionsAreFedByVerifiedFramesOnly : Prop :=
  ∀ (s t : State) (k : Reasm), step s = .next t → t.rs.get k ≠ s.rs.get k →
    (∃ rest, s.inbox = .reset :: rest) ∨
    ∃ (w : Words) (B : Bytes) (rest : List InputEvent) (p : Packet), s.inbox = .request ⟨.link, w⟩ :: rest ∧
      (w = .frame152 B ∨ decode s.cfg w = .ok (.rx B)) ∧ decodeFrame s.cfg B = some p ∧
      verifyPacket s.cfg p = .ok ∧ reasmOf s.cfg p = some k

/-- R252 over all operations, as a balance: a service's cell waits, or its `AWAIT` is accepted now, exactly as often as its
`RESULT` port gets an event or the cell still waits; so every accepted `AWAIT` that resolves gets exactly one result, and no
result comes without one. -/
def Obligations.EveryAwaitGetsOneResult : Prop :=
  ∀ (i : Instr) (s t : State) (sv : Service), exec i s = .next t →
    ∃ l : List GateResult, t.out.result.get sv = s.out.result.get sv ++ l ∧
      l.length + (t.gate.get sv).waiting.toNat = (s.gate.get sv).waiting.toNat +
        (match i with | .await sv' _ _ => (decide (sv' = sv)).toNat | _ => 0)

/-- Over all operations: whatever an operation does, the events on every output port stay and keep their order
(R38, R74). -/
def Obligations.OutputPortsOnlyGrow : Prop :=
  ∀ (i : Instr) (s t : State), exec i s = .next t → PortsExtend s t

/-- R243 and R245: every step keeps the gate's steady state, in which no waiting cell is satisfied or out of time. -/
def Obligations.StepKeepsTheGateSteady : Prop :=
  ∀ s t : State, GateInv s → step s = .next t → GateInv t

/-- R227 and R230: every step keeps the reassembler's steady state, in which no session is in `Done`, an idle session is at its
reset values and `expectedTotalPackets` is 0. -/
def Obligations.StepKeepsTheReassemblerSteady : Prop :=
  ∀ s t : State, ReasmInv s → step s = .next t → ReasmInv t

/-- R22, R28, R34, R35, R37, R43 and R303: every step keeps registers within their widths, buffers within their sizes and
bounds, the banks to the members of `SERVICES`, the gate's cells steady, and the configuration admissible, with the state at its
reset values until the configuration is fixed (`BootInv`: the values of `FRAME` and `PKT` there are log 5's, and when the
configuration is fixed is log 12's, the model's choices). -/
def Obligations.StepKeepsWidthsAndSizes : Prop :=
  ∀ s t : State, BootInv s → GateInv s → BankInv s → BufferInv s → WidthInv s → BufferSizes s → step s = .next t →
    BootInv t ∧ GateInv t ∧ BankInv t ∧ BufferInv t ∧ WidthInv t ∧ BufferSizes t

/-- R66, R284 and R287: every step keeps every emitted envelope 147 bytes long and every emitted frame 152. -/
def Obligations.StepKeepsEmittedLengths : Prop :=
  ∀ s t : State, PortInv s → step s = .next t → PortInv t

/-- The invariants hold after reset: the values of R40 and R301 are the spec's. That the configuration at reset is admissible is
the model's choice (log 1: the spec leaves the values to the host's load), and so are the values of `FRAME` and `PKT`, which the
spec leaves unspecified (log 5). -/
def Obligations.ResetMeetsTheInvariants : Prop :=
  BootInv State.reset ∧ GateInv State.reset ∧ BankInv State.reset ∧ ReasmInv State.reset ∧ BufferInv State.reset ∧
    WidthInv State.reset ∧ BufferSizes State.reset ∧ PortInv State.reset
end

