-- ==== Sys2Proof/Laws/Bits.lean ====
section
/-! SUPPORT. The small lemmas of the byte-order helpers and of the byte lists of the codec. -/
namespace Sys2Proof

@[simp] theorem hiByte_word16 (a b : Byte) : hiByte (word16 a b) = a := by
  apply BitVec.eq_of_getLsbD_eq
  intro i hi
  have h1 : ¬ (8 + i < 8) := by omega
  have h2 : 8 + i < 16 := by omega
  simp [hiByte, word16, hi, h1, h2]

@[simp] theorem loByte_word16 (a b : Byte) : loByte (word16 a b) = b := by
  apply BitVec.eq_of_getLsbD_eq
  intro i hi
  have h2 : i < 16 := by omega
  simp [loByte, word16, hi, h2]

@[simp] theorem word16_hiByte_loByte (w : Word16) : word16 (hiByte w) (loByte w) = w := by
  apply BitVec.eq_of_getLsbD_eq
  intro i hi
  by_cases h : i < 8
  · simp [hiByte, loByte, word16, h, hi]
  · have h8 : 8 + (i - 8) = i := by omega
    have h9 : i - 8 < 8 := by omega
    simp [hiByte, loByte, word16, h, hi, h8, h9]

theorem toNat_word16 (a b : Byte) : (word16 a b).toNat = a.toNat * 256 + b.toNat := by
  have ha := a.isLt
  have hb := b.isLt
  have h1 : a.toNat <<< 8 % 2 ^ 16 = a.toNat <<< 8 := by
    rw [Nat.shiftLeft_eq]
    omega
  simp only [word16, BitVec.toNat_or, BitVec.toNat_shiftLeft, BitVec.toNat_setWidth]
  rw [Nat.mod_eq_of_lt (by omega : a.toNat < 2 ^ 16), Nat.mod_eq_of_lt (by omega : b.toNat < 2 ^ 16), h1,
    ← Nat.shiftLeft_add_eq_or_of_lt (by omega : b.toNat < 2 ^ 8), Nat.shiftLeft_eq]

theorem toNat_hiByte (w : Word16) : (hiByte w).toNat = w.toNat / 256 := by
  have h := w.isLt
  have e : w.toNat >>> 8 = w.toNat / 256 := Nat.shiftRight_eq_div_pow _ _
  simp only [hiByte, BitVec.extractLsb'_toNat]
  omega

theorem toNat_loByte (w : Word16) : (loByte w).toNat = w.toNat % 256 := by
  simp [loByte, BitVec.extractLsb'_toNat]

@[simp] theorem length_firstBytes (n : Nat) (b : Bytes) : (firstBytes n b).length = n := by
  simp [firstBytes]

theorem firstBytes_getElem? {n i : Nat} (b : Bytes) (h : i < n) : (firstBytes n b)[i]? = some (byteAt b i) := by
  simp [firstBytes, h]

theorem firstBytes_of_length {n : Nat} {b : Bytes} (h : b.length = n) : firstBytes n b = b := by
  apply List.ext_getElem?
  intro i
  by_cases hi : i < n
  · rw [firstBytes_getElem? b hi]
    simp [byteAt, h, hi]
  · rw [List.getElem?_eq_none (by simp; omega), List.getElem?_eq_none (by omega)]

@[simp] theorem length_checksumBytes (c : Config) (k : Word16) : (checksumBytes c k).length = 2 := by
  unfold checksumBytes
  split <;> rfl

@[simp] theorem length_frameBody (c : Config) (h : Header) (p : Bytes) : (frameBody c h p).length = 150 := by
  simp [frameBody]

@[simp] theorem length_encodeFrame (c : Config) (h : Header) (p : Bytes) : (encodeFrame c h p).length = 152 := by
  simp [encodeFrame]

@[simp] theorem length_frameOfPacket (c : Config) (p : Packet) : (frameOfPacket c p).length = 152 := by
  simp [frameOfPacket]

/-- The checksum of a frame covers the bytes after the two checksum bytes, whatever those two hold (R140). -/
theorem frameChecksum_append (ck body body' : Bytes) (h : ck.length = 2) (h' : body'.length = 2) :
    frameChecksum (ck ++ body) = frameChecksum (body' ++ body) := by
  simp [frameChecksum, fletcher16, h, h']

theorem decodeFrame_of_length {c : Config} {B : Bytes} (h : B.length = 152) :
    decodeFrame c B = some (packetOfFrame c B) := by
  simp [decodeFrame, frameLen, h]

theorem decodeFrame_eq_none {c : Config} {B : Bytes} : decodeFrame c B = none ↔ B.length ≠ 152 := by
  unfold decodeFrame frameLen
  split <;> simp_all

theorem decodeFrame_some {c : Config} {B : Bytes} {p : Packet} (h : decodeFrame c B = some p) :
    B.length = 152 ∧ p = packetOfFrame c B := by
  unfold decodeFrame frameLen at h
  split at h
  · rename_i hb
    exact ⟨hb, by simpa using h.symm⟩
  · cases h

end Sys2Proof
end

