-- ==== Sys2Proof/Laws/Operands.lean ====
section
/-! SUPPORT. What the builders make, once and byte by byte: envelopes, alerts, timestamp words. -/
namespace Sys2Proof.Machine

/-- A byte after the 137 payload bytes of an envelope. -/
theorem byteAt_payload_append (b l : Bytes) (i : Nat) : byteAt (firstBytes 137 b ++ l) (137 + i) = byteAt l i := by
  have h : (firstBytes 137 b).length = 137 := length_firstBytes _ _
  simp [byteAt, List.getElem?_append_right, h]

/-- A byte of the payload copy of an envelope. -/
theorem getElem?_payload_append (b l : Bytes) {i : Nat} (h : i < 137) :
    (firstBytes 137 b ++ l)[i]? = some (byteAt b i) := by
  rw [List.getElem?_append_left (by simp; omega), firstBytes_getElem? b h]

theorem loByte_psc (p : Packet) : loByte (psc p) = p.seqCount := by
  apply BitVec.eq_of_getLsbD_eq
  intro i hi
  have h1 : i < 14 := by omega
  have h2 : i < 16 := by omega
  simp [loByte, psc, hi, h1, h2]

theorem toNat_hiByte_psc (p : Packet) : (hiByte (psc p)).toNat = 64 * p.seqFlags.toNat := by
  have h1 := p.seqFlags.isLt
  have h2 := p.seqCount.isLt
  have e : (psc p).toNat = p.seqFlags.toNat * 2 ^ 14 + p.seqCount.toNat := by
    have h3 : p.seqFlags.toNat <<< 14 % 2 ^ 16 = p.seqFlags.toNat <<< 14 := by
      rw [Nat.shiftLeft_eq]
      omega
    simp only [psc, BitVec.toNat_or, BitVec.toNat_shiftLeft, BitVec.toNat_setWidth]
    rw [Nat.mod_eq_of_lt (by omega : p.seqFlags.toNat < 2 ^ 16), Nat.mod_eq_of_lt (by omega : p.seqCount.toNat < 2 ^ 16), h3,
      ← Nat.shiftLeft_add_eq_or_of_lt (by omega : p.seqCount.toNat < 2 ^ 14), Nat.shiftLeft_eq]
  rw [toNat_hiByte, e]
  omega

theorem loByte_packetId (p : Packet) : loByte (packetId p) = p.apid := by
  apply BitVec.eq_of_getLsbD_eq
  intro i hi
  have h1 : i < 13 := by omega
  have h2 : i < 12 := by omega
  have h3 : i < 11 := by omega
  have h4 : i < 16 := by omega
  simp [loByte, packetId, hi, h1, h2, h3, h4]

theorem toNat_packetId (p : Packet) :
    (packetId p).toNat = p.version.toNat * 2 ^ 13 + (p.pktType.toNat * 2 ^ 12 + (p.secHdrFlag.toNat * 2 ^ 11 + p.apid.toNat)) := by
  have h1 := p.version.isLt
  have h2 := p.pktType.isLt
  have h3 := p.secHdrFlag.isLt
  have h4 := p.apid.isLt
  have e1 : p.version.toNat <<< 13 % 2 ^ 16 = p.version.toNat <<< 13 := by
    rw [Nat.shiftLeft_eq]
    omega
  have e2 : p.pktType.toNat <<< 12 % 2 ^ 16 = p.pktType.toNat <<< 12 := by
    rw [Nat.shiftLeft_eq]
    omega
  have e3 : p.secHdrFlag.toNat <<< 11 % 2 ^ 16 = p.secHdrFlag.toNat <<< 11 := by
    rw [Nat.shiftLeft_eq]
    omega
  simp only [packetId, BitVec.toNat_or, BitVec.toNat_shiftLeft, BitVec.toNat_setWidth]
  rw [Nat.mod_eq_of_lt (by omega : p.version.toNat < 2 ^ 16), Nat.mod_eq_of_lt (by omega : p.pktType.toNat < 2 ^ 16),
    Nat.mod_eq_of_lt (by omega : p.secHdrFlag.toNat < 2 ^ 16), Nat.mod_eq_of_lt (by omega : p.apid.toNat < 2 ^ 16), e1, e2, e3,
    Nat.or_assoc, Nat.or_assoc, ← Nat.shiftLeft_add_eq_or_of_lt (by omega : p.apid.toNat < 2 ^ 11), Nat.shiftLeft_eq _ 11,
    ← Nat.shiftLeft_add_eq_or_of_lt (by omega : p.secHdrFlag.toNat * 2 ^ 11 + p.apid.toNat < 2 ^ 12), Nat.shiftLeft_eq _ 12,
    ← Nat.shiftLeft_add_eq_or_of_lt
      (by omega : p.pktType.toNat * 2 ^ 12 + (p.secHdrFlag.toNat * 2 ^ 11 + p.apid.toNat) < 2 ^ 13), Nat.shiftLeft_eq _ 13]

theorem toNat_hiByte_packetId (p : Packet) :
    (hiByte (packetId p)).toNat = 32 * p.version.toNat + 16 * p.pktType.toNat + 8 * p.secHdrFlag.toNat := by
  have h4 := p.apid.isLt
  rw [toNat_hiByte, toNat_packetId]
  omega

/-- The envelope of R175 is the envelope of R105, byte by byte. -/
theorem envelope_spec (c : Config) (p : Packet) : IsEnvelope c p (envelope c p) := by
  have hb := byteAt_payload_append p.payload
  constructor
  · simp [envelope]
  · intro i hi
    exact getElem?_payload_append _ _ hi
  · exact ⟨hb _ 0, hb _ 1⟩
  · refine ⟨(hb _ 4).trans (loByte_psc p), ?_, (hb _ 6).trans (loByte_packetId p), ?_⟩
    · exact (congrArg BitVec.toNat (hb _ 5)).trans (toNat_hiByte_psc p)
    · exact (congrArg BitVec.toNat (hb _ 7)).trans (toNat_hiByte_packetId p)
  · intro h
    refine ⟨(hb _ 2).trans (by simp [byteAt, h]), (congrArg BitVec.toNat (hb _ 3)).trans ?_, (hb _ 8).trans ?_⟩
    · have := p.seqFlags.isLt
      simp [byteAt, h]
      omega
    · simp [byteAt, h, memId, payloadAt]
  · intro h
    have h6 : (p.serviceType = 6#8) = False := eq_false h
    refine ⟨(hb _ 2).trans ?_, (hb _ 3).trans ?_, (hb _ 8).trans ?_⟩ <;> simp [byteAt, h6]
  · exact hb _ 9

/-- The alert of R178 is the alert of R106, byte by byte. -/
theorem alert_spec (code aux : Byte) (p : Packet) : IsAlert code aux p (alert code aux (some p)) := by
  have hb := byteAt_payload_append p.payload
  constructor
  · simp [alert]
  · intro i hi
    exact getElem?_payload_append _ _ hi
  · intro i h1 h2
    obtain ⟨j, rfl⟩ : ∃ j, i = 137 + j := ⟨i - 137, by omega⟩
    refine (hb _ j).trans ?_
    have : j = 0 ∨ j = 1 ∨ j = 2 ∨ j = 3 := by omega
    rcases this with rfl | rfl | rfl | rfl <;> rfl
  · refine ⟨(hb _ 4).trans (loByte_psc p), ?_, (hb _ 6).trans (loByte_packetId p), ?_⟩
    · exact (congrArg BitVec.toNat (hb _ 5)).trans (toNat_hiByte_psc p)
    · exact (congrArg BitVec.toNat (hb _ 7)).trans (toNat_hiByte_packetId p)
  · exact hb _ 8
  · exact hb _ 9

/-- The alert of a timeout, R246: nothing but its code. -/
theorem bareAlert_spec (code : Byte) : IsBareAlert code (alert code 0 none) := by
  constructor
  · simp [alert]
  · intro i hi
    by_cases h : i < 145
    · have e : (alert code 0 none)[i]? = some 0 := by
        rw [alert, List.getElem?_append_left (by rw [List.length_replicate]; omega), List.getElem?_replicate, if_pos h]
      simp only [byteAt, List.getD_eq_getElem?_getD, e, Option.getD_some]
    · have : i = 145 := by omega
      subst this
      simp [alert, byteAt]
  · simp [alert, byteAt]

@[simp] theorem length_envelope (c : Config) (p : Packet) : (envelope c p).length = 147 := (envelope_spec c p).length

@[simp] theorem length_alert (code aux : Byte) (src : Option Packet) : (alert code aux src).length = 147 := by
  cases src <;> simp [alert]

/-- The timestamp word fits its two bytes. -/
theorem packTime_lt (w : TimeWidths) (t : Time) (h : w.sum = 16) : packTime w t < 65536 := by
  have hs : w.day + (w.hour + w.minute + w.second) = 16 := by
    simp only [TimeWidths.sum] at h
    omega
  have e1 : (2 : Nat) ^ (w.hour + w.minute + w.second) = 2 ^ w.hour * 2 ^ (w.minute + w.second) := by
    rw [Nat.add_assoc, Nat.pow_add]
  have e2 : (2 : Nat) ^ (w.minute + w.second) = 2 ^ w.minute * 2 ^ w.second := Nat.pow_add _ _ _
  have e0 : (65536 : Nat) = 2 ^ w.day * 2 ^ (w.hour + w.minute + w.second) := by
    rw [← Nat.pow_add, hs]
  have hd := Nat.mod_lt t.day (Nat.two_pow_pos w.day)
  have hh := Nat.mod_lt t.hour (Nat.two_pow_pos w.hour)
  have hm := Nat.mod_lt t.minute (Nat.two_pow_pos w.minute)
  have hsec := Nat.mod_lt t.second (Nat.two_pow_pos w.second)
  rw [e0]
  unfold packTime
  generalize t.day % 2 ^ w.day = d at *
  generalize t.hour % 2 ^ w.hour = hr at *
  generalize t.minute % 2 ^ w.minute = m at *
  generalize t.second % 2 ^ w.second = sec at *
  have a1 : m * 2 ^ w.second + sec < 2 ^ (w.minute + w.second) := by
    rw [e2]
    calc m * 2 ^ w.second + sec < m * 2 ^ w.second + 2 ^ w.second := by omega
      _ = (m + 1) * 2 ^ w.second := by ring
      _ ≤ 2 ^ w.minute * 2 ^ w.second := Nat.mul_le_mul_right _ hm
  have a2 : hr * 2 ^ (w.minute + w.second) + (m * 2 ^ w.second + sec) < 2 ^ (w.hour + w.minute + w.second) := by
    rw [e1]
    calc hr * 2 ^ (w.minute + w.second) + (m * 2 ^ w.second + sec)
        < hr * 2 ^ (w.minute + w.second) + 2 ^ (w.minute + w.second) := by omega
      _ = (hr + 1) * 2 ^ (w.minute + w.second) := by ring
      _ ≤ 2 ^ w.hour * 2 ^ (w.minute + w.second) := Nat.mul_le_mul_right _ hh
  calc d * 2 ^ (w.hour + w.minute + w.second) + hr * 2 ^ (w.minute + w.second) + m * 2 ^ w.second + sec
      < d * 2 ^ (w.hour + w.minute + w.second) + 2 ^ (w.hour + w.minute + w.second) := by omega
    _ = (d + 1) * 2 ^ (w.hour + w.minute + w.second) := by ring
    _ ≤ 2 ^ w.day * 2 ^ (w.hour + w.minute + w.second) := Nat.mul_le_mul_right _ hd

/-- Splitting a timestamp word gives the components reduced to their widths (R99, R134). -/
theorem unpackTime_packTime (w : TimeWidths) (t : Time) :
    unpackTime w (packTime w t) =
      ⟨t.day % 2 ^ w.day, t.hour % 2 ^ w.hour, t.minute % 2 ^ w.minute, t.second % 2 ^ w.second⟩ := by
  have e1 : (2 : Nat) ^ (w.hour + w.minute + w.second) = 2 ^ w.second * 2 ^ w.minute * 2 ^ w.hour := by
    rw [← Nat.pow_add, ← Nat.pow_add]
    congr 1
    omega
  have e2 : (2 : Nat) ^ (w.minute + w.second) = 2 ^ w.second * 2 ^ w.minute := by
    rw [← Nat.pow_add]
    congr 1
    omega
  have e3 : (2 : Nat) ^ (w.second + w.minute + w.hour) = 2 ^ w.second * 2 ^ w.minute * 2 ^ w.hour := by
    rw [Nat.pow_add, Nat.pow_add]
  have e4 : (2 : Nat) ^ (w.second + w.minute) = 2 ^ w.second * 2 ^ w.minute := Nat.pow_add _ _ _
  have hh := Nat.mod_lt t.hour (Nat.two_pow_pos w.hour)
  have hm := Nat.mod_lt t.minute (Nat.two_pow_pos w.minute)
  have hsec := Nat.mod_lt t.second (Nat.two_pow_pos w.second)
  have p1 := Nat.two_pow_pos w.second
  have p2 := Nat.two_pow_pos w.minute
  have p3 := Nat.two_pow_pos w.hour
  unfold unpackTime packTime
  rw [e1, e2, e3, e4]
  generalize t.day % 2 ^ w.day = d at *
  generalize t.hour % 2 ^ w.hour = hr at *
  generalize t.minute % 2 ^ w.minute = m at *
  generalize t.second % 2 ^ w.second = sec at *
  generalize 2 ^ w.second = S at *
  generalize 2 ^ w.minute = M at *
  generalize 2 ^ w.hour = H at *
  have r : d * (S * M * H) + hr * (S * M) + m * S + sec = sec + S * (m + M * (hr + H * d)) := by ring
  have q1 : (sec + S * (m + M * (hr + H * d))) / S = m + M * (hr + H * d) := by
    rw [Nat.add_mul_div_left _ _ p1, Nat.div_eq_of_lt hsec, Nat.zero_add]
  have q2 : (m + M * (hr + H * d)) / M = hr + H * d := by
    rw [Nat.add_mul_div_left _ _ p2, Nat.div_eq_of_lt hm, Nat.zero_add]
  have q3 : (hr + H * d) / H = d := by
    rw [Nat.add_mul_div_left _ _ p3, Nat.div_eq_of_lt hh, Nat.zero_add]
  rw [r]
  simp only [← Nat.div_div_eq_div_mul, q1, q2, q3, Nat.add_mul_mod_self_left, Nat.mod_eq_of_lt hh, Nat.mod_eq_of_lt hm,
    Nat.mod_eq_of_lt hsec]

/-- A split timestamp word has components within their widths (R22). -/
theorem unpackTime_fits (w : TimeWidths) (tsw : Nat) (h : w.sum = 16) (ht : tsw < 65536) : (unpackTime w tsw).fits w = true := by
  have hs : w.second + w.minute + w.hour + w.day = 16 := by
    simp only [TimeWidths.sum] at h
    omega
  have e0 : tsw < 2 ^ (w.second + w.minute + w.hour) * 2 ^ w.day := by
    rw [← Nat.pow_add, hs]
    exact ht
  simp only [Time.fits, unpackTime, Bool.and_eq_true]
  exact ⟨⟨⟨decide_eq_true (Nat.div_lt_of_lt_mul e0), decide_eq_true (Nat.mod_lt _ (Nat.two_pow_pos _))⟩,
    decide_eq_true (Nat.mod_lt _ (Nat.two_pow_pos _))⟩, decide_eq_true (Nat.mod_lt _ (Nat.two_pow_pos _))⟩

end Sys2Proof.Machine
end

