-- ==== Sys2Proof/Laws/Frame.lean ====
section
/-! SUPPORT. What a field of an encoded frame reads as: slots of a header byte that share no bit can be read back, and the parts
of a frame are where R70 puts them. -/
namespace Sys2Proof

open Machine

/-- The place and the width of a slot. -/
def Slot.span (f : Slot) : FieldPos × Nat := (f.pos, f.width)

/-- A bit of a slot's bits. -/
theorem testBit_slotBits (f : Slot) (k : Nat) :
    (slotBits f).testBit k = (decide (f.pos.lo.val ≤ k) && (f.value % 2 ^ f.width).testBit (k - f.pos.lo.val)) := by
  rw [slotBits, Nat.mul_comm, Nat.testBit_two_pow_mul]

/-- A slot has bits only within its width. -/
theorem testBit_slotBits_of_le {f : Slot} {k : Nat} (h : f.pos.lo.val + f.width ≤ k) : (slotBits f).testBit k = false := by
  rw [testBit_slotBits]
  have : (f.value % 2 ^ f.width).testBit (k - f.pos.lo.val) = false :=
    Nat.testBit_lt_two_pow
      (lt_of_lt_of_le (Nat.mod_lt _ (Nat.two_pow_pos _)) (Nat.pow_le_pow_right (by omega) (by omega)))
  simp [this]

/-- Bit `n` of a frame, as far as a slot fills it. -/
def Slot.fills (f : Slot) (n : Nat) : Bool := decide (8 * f.pos.byte ≤ n) && (slotBits f).testBit (n - 8 * f.pos.byte)

/-- A slot fills no bit outside its span. -/
theorem Slot.fills_outside {f : Slot} {n : Nat} (h : n < f.pos.bit ∨ f.pos.bit + f.width ≤ n) : f.fills n = false := by
  unfold FieldPos.bit at h
  unfold Slot.fills
  rcases h with h | h
  · rw [testBit_slotBits]
    by_cases h1 : 8 * f.pos.byte ≤ n
    · have : ¬ f.pos.lo.val ≤ n - 8 * f.pos.byte := by omega
      simp [this]
    · simp [h1]
  · rw [testBit_slotBits_of_le (by omega)]
    simp

/-- A slot fills its span with its value. -/
theorem Slot.fills_inside (f : Slot) {i : Nat} (h : i < f.width) : f.fills (f.pos.bit + i) = f.value.testBit i := by
  have e : f.pos.bit + i - 8 * f.pos.byte - f.pos.lo.val = i := by
    unfold FieldPos.bit
    omega
  have h1 : 8 * f.pos.byte ≤ f.pos.bit + i := by
    unfold FieldPos.bit
    omega
  have h2 : f.pos.lo.val ≤ f.pos.bit + i - 8 * f.pos.byte := by
    unfold FieldPos.bit
    omega
  simp [Slot.fills, testBit_slotBits, e, h1, h2, Nat.testBit_mod_two_pow, h]

/-- A bit of what a slot puts into a byte. -/
theorem getLsbD_slotByte {f : Slot} (hw : f.width ≤ 8) {j k : Nat} (hk : k < 8) :
    ((slotByte f j).getD 0).getLsbD k = f.fills (8 * j + k) := by
  have hlo := f.pos.lo.isLt
  unfold slotByte
  split
  · rename_i h
    have e : 8 * j + k - 8 * f.pos.byte = k := by omega
    have h1 : 8 * f.pos.byte ≤ 8 * j + k := by omega
    rw [Option.getD_some, BitVec.getLsbD_ofNat]
    simp [Slot.fills, e, h1, hk]
  · split
    · rename_i h0 h
      have e : 8 * j + k - 8 * f.pos.byte = k + 8 := by omega
      have h1 : 8 * f.pos.byte ≤ 8 * j + k := by omega
      have e2 : slotBits f / 256 = slotBits f / 2 ^ 8 := rfl
      rw [Option.getD_some, BitVec.getLsbD_ofNat, e2, Nat.testBit_div_two_pow]
      simp [Slot.fills, e, h1, hk]
    · rename_i h0 h
      symm
      have hz : (0 : Byte).getLsbD k = false := BitVec.getLsbD_zero
      rw [Option.getD_none, hz]
      apply Slot.fills_outside
      unfold FieldPos.bit
      simp only [FieldPos.straddles, decide_eq_true_eq, not_and_or] at h
      omega

/-- A bit of a header byte is a bit that one of its slots fills. -/
theorem getLsbD_headerByte {slots : List Slot} (hw : ∀ f ∈ slots, f.width ≤ 8) {j k : Nat} (hk : k < 8) :
    (headerByte slots j).getLsbD k = slots.any fun f => f.fills (8 * j + k) := by
  induction slots with
  | nil => simp [headerByte]
  | cons f l ih =>
    have ih := ih fun g hg => hw g (List.mem_cons_of_mem _ hg)
    have hf := getLsbD_slotByte (hw f List.mem_cons_self) hk (j := j)
    have e : headerByte (f :: l) j = match slotByte f j with
      | some b => b ||| headerByte l j
      | none => headerByte l j := rfl
    rw [e, List.any_cons, ← ih, ← hf]
    cases slotByte f j <;> simp

theorem spansDisjoint_symm {a b : FieldPos × Nat} (h : spansDisjoint a b = true) : spansDisjoint b a = true := by
  simp only [spansDisjoint, Bool.or_eq_true] at h ⊢
  exact h.symm

/-- Two different slots of a pairwise disjoint list are disjoint. -/
theorem pairwise_of_ne {slots : List Slot} (hd : slots.Pairwise fun f g => spansDisjoint f.span g.span = true) {f g : Slot}
    (hf : f ∈ slots) (hg : g ∈ slots) (hne : f ≠ g) : spansDisjoint f.span g.span = true := by
  induction slots with
  | nil => cases hf
  | cons a l ih =>
    rw [List.pairwise_cons] at hd
    rcases List.mem_cons.mp hf with rfl | hf'
    · rcases List.mem_cons.mp hg with rfl | hg'
      · exact absurd rfl hne
      · exact hd.1 g hg'
    · rcases List.mem_cons.mp hg with rfl | hg'
      · exact spansDisjoint_symm (hd.1 f hf')
      · exact ih hd.2 hf' hg'

/-- In a list of slots that share no bit, the bits of a slot's span are those of its value. -/
theorem any_fills {slots : List Slot} (hd : slots.Pairwise fun f g => spansDisjoint f.span g.span = true) {f : Slot}
    (hf : f ∈ slots) {i : Nat} (hi : i < f.width) : (slots.any fun g => g.fills (f.pos.bit + i)) = f.value.testBit i := by
  have hself := f.fills_inside hi
  cases hv : f.value.testBit i with
  | true =>
    rw [List.any_eq_true]
    exact ⟨f, hf, hself.trans hv⟩
  | false =>
    rw [List.any_eq_false]
    intro g hg
    by_cases hne : g = f
    · subst hne
      simp [hself, hv]
    · have hdis := pairwise_of_ne hd hf hg fun e => hne e.symm
      have hdis : f.pos.bit + f.width ≤ g.pos.bit ∨ g.pos.bit + g.width ≤ f.pos.bit := by
        simp only [spansDisjoint, Slot.span, Bool.or_eq_true] at hdis
        exact hdis.imp of_decide_eq_true of_decide_eq_true
      rw [Slot.fills_outside (by omega)]
      simp

/-- A field within one byte. -/
theorem readField_inside (F : Bytes) (pos : FieldPos) (w : Nat) (h : pos.lo.val + w ≤ 8) :
    readField F pos w = (byteAt F pos.byte).extractLsb' pos.lo.val w := by
  have : ¬ 8 < pos.lo.val + w := by omega
  simp [readField, FieldPos.straddles, this]

/-- A bit of a field that is read is the bit of the frame at its position. -/
theorem getLsbD_readField (F : Bytes) (pos : FieldPos) {w i : Nat} (hw : w ≤ 8) (hi : i < w) :
    (readField F pos w).getLsbD i = (byteAt F ((pos.bit + i) / 8)).getLsbD ((pos.bit + i) % 8) := by
  have hlo := pos.lo.isLt
  unfold readField FieldPos.bit
  split
  · rw [BitVec.getLsbD_extractLsb']
    by_cases h : pos.lo.val + i < 8
    · have e1 : (8 * pos.byte + pos.lo.val + i) / 8 = pos.byte := by omega
      have e2 : (8 * pos.byte + pos.lo.val + i) % 8 = pos.lo.val + i := by omega
      have h16 : pos.lo.val + i < 16 := by omega
      simp [word16, hi, h, h16, e1, e2]
    · have e1 : (8 * pos.byte + pos.lo.val + i) / 8 = pos.byte + 1 := by omega
      have e2 : (8 * pos.byte + pos.lo.val + i) % 8 = pos.lo.val + i - 8 := by omega
      have h16 : pos.lo.val + i < 16 := by omega
      have h0 : (byteAt F pos.byte).getLsbD (pos.lo.val + i) = false := BitVec.getLsbD_of_ge _ _ (by omega)
      simp [word16, hi, h, h16, e1, e2, h0]
  · rename_i h
    simp only [FieldPos.straddles, decide_eq_true_eq] at h
    have e1 : (8 * pos.byte + pos.lo.val + i) / 8 = pos.byte := by omega
    have e2 : (8 * pos.byte + pos.lo.val + i) % 8 = pos.lo.val + i := by omega
    rw [BitVec.getLsbD_extractLsb', e1, e2]
    simp [hi]

/-- The slots of a header record lie where the layout says. -/
theorem headerSlots_span (c : Config) (h : Header) : (headerSlots c h).map Slot.span = layoutSpans c.layout := rfl

theorem headerSlots_disjoint {c : Config} (hc : c.layout.wf = true) (h : Header) :
    (headerSlots c h).Pairwise fun f g => spansDisjoint f.span g.span = true := by
  have := hc
  simp only [Layout.wf, Bool.and_eq_true, decide_eq_true_eq] at this
  have h2 := this.2
  rw [← headerSlots_span c h, List.pairwise_map] at h2
  exact h2

theorem headerSlots_place {c : Config} (hc : c.layout.wf = true) (h : Header) :
    ∀ f ∈ headerSlots c h, 139 ≤ f.pos.byte ∧ f.pos.bit + f.width ≤ 8 * 152 := by
  intro f hf
  have := hc
  simp only [Layout.wf, Bool.and_eq_true] at this
  have h1 := this.1
  rw [← headerSlots_span c h, List.all_map, List.all_eq_true] at h1
  have h2 := h1 f hf
  simp only [Function.comp, Slot.span, Bool.and_eq_true] at h2
  exact ⟨of_decide_eq_true h2.1, of_decide_eq_true h2.2⟩

theorem headerSlots_width (c : Config) (h : Header) : ∀ f ∈ headerSlots c h, f.width ≤ 8 := by
  simp [headerSlots]

/-- A header byte of a frame. -/
theorem byteAt_header (c : Config) (h : Header) (p ck : Bytes) (hck : ck.length = 2) {j : Nat} (h1 : 139 ≤ j) (h2 : j < 152) :
    byteAt (ck ++ frameBody c h p) j = headerByte (headerSlots c h) j := by
  have e : j - 2 - 137 < 13 := by omega
  have e2 : 139 + (j - 2 - 137) = j := by omega
  simp only [byteAt, List.getD_eq_getElem?_getD, frameBody]
  rw [List.getElem?_append_right (by omega), hck, List.getElem?_append_right (by simp; omega)]
  simp [e, e2]

/-- A field of an encoded frame reads as its value reduced to its width (R92, R134). -/
theorem readField_frame {c : Config} (hc : c.layout.wf = true) (h : Header) (p ck : Bytes) (hck : ck.length = 2) {f : Slot}
    (hf : f ∈ headerSlots c h) : readField (ck ++ frameBody c h p) f.pos f.width = BitVec.ofNat f.width f.value := by
  obtain ⟨h1, h2⟩ := headerSlots_place hc h f hf
  have hw := headerSlots_width c h
  apply BitVec.eq_of_getLsbD_eq
  intro i hi
  have hb : 8 * f.pos.byte ≤ f.pos.bit := by simp [FieldPos.bit]
  rw [getLsbD_readField _ _ (hw f hf) hi, byteAt_header c h p ck hck (by omega) (by omega),
    getLsbD_headerByte hw (Nat.mod_lt _ (by omega)), Nat.div_add_mod, any_fills (headerSlots_disjoint hc h) hf hi,
    BitVec.getLsbD_ofNat]
  simp [hi]

/-- The payload of an encoded frame. -/
theorem payload_frame (c : Config) (h : Header) (p ck : Bytes) (hck : ck.length = 2) (hp : p.length = 137) :
    firstBytes 137 ((ck ++ frameBody c h p).drop 2) = p := by
  rw [List.drop_append_of_le_length (by omega), List.drop_eq_nil_of_le (by omega), List.nil_append, frameBody]
  apply List.ext_getElem?
  intro i
  by_cases hi : i < 137
  · rw [firstBytes_getElem? _ hi, byteAt, List.getD_eq_getElem?_getD, List.getElem?_append_left (by simp; omega),
      firstBytes_getElem? _ hi]
    simp [byteAt, hp, hi]
  · rw [List.getElem?_eq_none (by simp; omega), List.getElem?_eq_none (by omega)]

/-- The checksum bytes read back (R62, P3). -/
theorem readChecksum_frame (c : Config) (k : Word16) (body : Bytes) : readChecksum c (checksumBytes c k ++ body) = k := by
  unfold readChecksum checksumBytes
  split <;> simp [byteAt]

/-- The timestamp word of an encoded frame reads back. -/
theorem toNat_word16_packTime (w : TimeWidths) (t : Time) (h : w.sum = 16) :
    (word16 (BitVec.ofNat 8 (packTime w t / 256)) (BitVec.ofNat 8 (packTime w t % 256))).toNat = packTime w t := by
  have := packTime_lt w t h
  rw [toNat_word16]
  simp
  omega

end Sys2Proof
end

