-- ==== Sys2Proof/Laws/State.lean ====
section
/-! SUPPORT. The small lemmas of the state: reading an entry of a bank after a write, and one lemma per field per named
update, so that no later proof unfolds a record update. -/
namespace Sys2Proof.Machine

/-! Banks -/

theorem entryOf_setEntry {α : Type} [Inhabited α] (l : List (Service × α)) (s t : Service) (v : α) :
    entryOf t (setEntry s v l) = if t = s then v else entryOf t l := by
  induction l with
  | nil => by_cases h : s = t <;> simp [setEntry, entryOf, h, eq_comm (a := t)]
  | cons e l ih =>
    by_cases h : e.1 = s
    · subst h
      by_cases ht : e.1 = t <;> simp [setEntry, entryOf, ht, eq_comm (a := t)]
    · by_cases ht : e.1 = t
      · subst ht
        simp [setEntry, entryOf, h]
      · simp [setEntry, entryOf, h, ht, ih]

theorem setEntry_setEntry {α : Type} (l : List (Service × α)) (s : Service) (v w : α) :
    setEntry s w (setEntry s v l) = setEntry s w l := by
  induction l with
  | nil => simp [setEntry]
  | cons e l ih => by_cases h : e.1 = s <;> simp [setEntry, h, ih]

theorem setEntry_keys {α : Type} {l : List (Service × α)} {s : Service} (v : α) (h : s ∈ l.map Prod.fst) :
    (setEntry s v l).map Prod.fst = l.map Prod.fst := by
  induction l with
  | nil => simp at h
  | cons e l ih =>
    by_cases he : e.1 = s
    · simp [setEntry, he]
    · have : s ∈ l.map Prod.fst := by
        rcases List.mem_cons.mp h with h | h
        · exact absurd h.symm he
        · exact h
      simp [setEntry, he, ih this]

@[simp] theorem PerService.get_set {α : Type} [Inhabited α] (b : PerService α) (s t : Service) (v : α) :
    (b.set s v).get t = if t = s then v else b.get t := entryOf_setEntry b.entries s t v

@[simp] theorem PerService.get_fresh {α : Type} [Inhabited α] (l : List Service) (s : Service) :
    (PerService.fresh l (default : α)).get s = default := by
  induction l with
  | nil => rfl
  | cons a l ih =>
    simp only [get, fresh, List.map_cons, entryOf] at ih ⊢
    split
    · rfl
    · exact ih

@[simp] theorem PerService.get_fresh_tcv (l : List Service) (s : Service) : (PerService.fresh l resetTcv).get s = resetTcv :=
  get_fresh l s

@[simp] theorem PerService.get_fresh_gate (l : List Service) (s : Service) : (PerService.fresh l resetGate).get s = resetGate :=
  get_fresh l s

@[simp] theorem PerService.get_fresh_nil {α : Type} (l : List Service) (s : Service) :
    (PerService.fresh l ([] : List α)).get s = [] := get_fresh l s

@[simp] theorem PerService.services_fresh {α : Type} (l : List Service) (v : α) : (PerService.fresh l v).services = l := by
  simp [services, fresh, Function.comp_def]

/-- A write to a service that has an entry keeps the services of the bank. -/
theorem PerService.services_set {α : Type} {b : PerService α} {s : Service} (v : α) (h : s ∈ b.services) :
    (b.set s v).services = b.services := setEntry_keys v h

@[simp] theorem PerConsumer.get_set {α : Type} (b : PerConsumer α) (s t : Consumer) (v : α) :
    (b.set s v).get t = if t = s then v else b.get t := by
  cases s <;> cases t <;> rfl

@[simp] theorem PerReasm.get_set {α : Type} (b : PerReasm α) (s t : Reasm) (v : α) :
    (b.set s v).get t = if t = s then v else b.get t := by
  cases s <;> cases t <;> rfl

theorem PerConsumer.ext_get {α : Type} {a b : PerConsumer α} (h : ∀ s, a.get s = b.get s) : a = b := by
  cases a
  cases b
  have h1 := h .hk
  have h2 := h .mem
  have h3 := h .sched
  have h4 := h .fdir
  simp_all [PerConsumer.get]

theorem PerReasm.ext_get {α : Type} {a b : PerReasm α} (h : ∀ s, a.get s = b.get s) : a = b := by
  cases a
  cases b
  have h1 := h .memDump
  have h2 := h .schedReport
  simp_all [PerReasm.get]

@[simp] theorem PerService.set_set {α : Type} (b : PerService α) (s : Service) (v w : α) :
    (b.set s v).set s w = b.set s w := by
  simp [PerService.set, setEntry_setEntry]

@[simp] theorem PerReasm.set_set {α : Type} (b : PerReasm α) (s : Reasm) (v w : α) : (b.set s v).set s w = b.set s w := by
  cases s <;> rfl

@[simp] theorem PerConsumer.set_set {α : Type} (b : PerConsumer α) (s : Consumer) (v w : α) :
    (b.set s v).set s w = b.set s w := by
  cases s <;> rfl

/-! `emitArchive` -/

@[simp] theorem emitArchive_cfg (b : Bytes) (s : State) : (emitArchive b s).cfg = s.cfg := rfl
@[simp] theorem emitArchive_frame (b : Bytes) (s : State) : (emitArchive b s).frame = s.frame := rfl
@[simp] theorem emitArchive_pkt (b : Bytes) (s : State) : (emitArchive b s).pkt = s.pkt := rfl
@[simp] theorem emitArchive_lt (b : Bytes) (s : State) : (emitArchive b s).lt = s.lt := rfl
@[simp] theorem emitArchive_prevLt (b : Bytes) (s : State) : (emitArchive b s).prevLt = s.prevLt := rfl
@[simp] theorem emitArchive_prevValid (b : Bytes) (s : State) : (emitArchive b s).prevValid = s.prevValid := rfl
@[simp] theorem emitArchive_tcv (b : Bytes) (s : State) : (emitArchive b s).tcv = s.tcv := rfl
@[simp] theorem emitArchive_rs (b : Bytes) (s : State) : (emitArchive b s).rs = s.rs := rfl
@[simp] theorem emitArchive_gate (b : Bytes) (s : State) : (emitArchive b s).gate = s.gate := rfl
@[simp] theorem emitArchive_returned (b : Bytes) (s : State) : (emitArchive b s).returned = s.returned := rfl
@[simp] theorem emitArchive_booted (b : Bytes) (s : State) : (emitArchive b s).booted = s.booted := rfl
@[simp] theorem emitArchive_inbox (b : Bytes) (s : State) : (emitArchive b s).inbox = s.inbox := rfl
@[simp] theorem emitArchive_out_archive (b : Bytes) (s : State) : (emitArchive b s).out.archive = s.out.archive ++ [b] := rfl
@[simp] theorem emitArchive_out_log (b : Bytes) (s : State) : (emitArchive b s).out.log = s.out.log := rfl
@[simp] theorem emitArchive_out_fwd (b : Bytes) (s : State) : (emitArchive b s).out.fwd = s.out.fwd := rfl
@[simp] theorem emitArchive_out_linkTx (b : Bytes) (s : State) : (emitArchive b s).out.linkTx = s.out.linkTx := rfl
@[simp] theorem emitArchive_out_sink (b : Bytes) (s : State) : (emitArchive b s).out.sink = s.out.sink := rfl
@[simp] theorem emitArchive_out_result (b : Bytes) (s : State) : (emitArchive b s).out.result = s.out.result := rfl
@[simp] theorem emitArchive_out_bcast (b : Bytes) (s : State) : (emitArchive b s).out.bcast = s.out.bcast := rfl

/-! `emitLog` -/

@[simp] theorem emitLog_cfg (e : LogEvent) (s : State) : (emitLog e s).cfg = s.cfg := rfl
@[simp] theorem emitLog_frame (e : LogEvent) (s : State) : (emitLog e s).frame = s.frame := rfl
@[simp] theorem emitLog_pkt (e : LogEvent) (s : State) : (emitLog e s).pkt = s.pkt := rfl
@[simp] theorem emitLog_lt (e : LogEvent) (s : State) : (emitLog e s).lt = s.lt := rfl
@[simp] theorem emitLog_prevLt (e : LogEvent) (s : State) : (emitLog e s).prevLt = s.prevLt := rfl
@[simp] theorem emitLog_prevValid (e : LogEvent) (s : State) : (emitLog e s).prevValid = s.prevValid := rfl
@[simp] theorem emitLog_tcv (e : LogEvent) (s : State) : (emitLog e s).tcv = s.tcv := rfl
@[simp] theorem emitLog_rs (e : LogEvent) (s : State) : (emitLog e s).rs = s.rs := rfl
@[simp] theorem emitLog_gate (e : LogEvent) (s : State) : (emitLog e s).gate = s.gate := rfl
@[simp] theorem emitLog_returned (e : LogEvent) (s : State) : (emitLog e s).returned = s.returned := rfl
@[simp] theorem emitLog_booted (e : LogEvent) (s : State) : (emitLog e s).booted = s.booted := rfl
@[simp] theorem emitLog_inbox (e : LogEvent) (s : State) : (emitLog e s).inbox = s.inbox := rfl
@[simp] theorem emitLog_out_archive (e : LogEvent) (s : State) : (emitLog e s).out.archive = s.out.archive := rfl
@[simp] theorem emitLog_out_log (e : LogEvent) (s : State) : (emitLog e s).out.log = s.out.log ++ [e] := rfl
@[simp] theorem emitLog_out_fwd (e : LogEvent) (s : State) : (emitLog e s).out.fwd = s.out.fwd := rfl
@[simp] theorem emitLog_out_linkTx (e : LogEvent) (s : State) : (emitLog e s).out.linkTx = s.out.linkTx := rfl
@[simp] theorem emitLog_out_sink (e : LogEvent) (s : State) : (emitLog e s).out.sink = s.out.sink := rfl
@[simp] theorem emitLog_out_result (e : LogEvent) (s : State) : (emitLog e s).out.result = s.out.result := rfl
@[simp] theorem emitLog_out_bcast (e : LogEvent) (s : State) : (emitLog e s).out.bcast = s.out.bcast := rfl

/-! `emitFwd` -/

@[simp] theorem emitFwd_cfg (c : Consumer) (E : Bytes) (s : State) : (emitFwd c E s).cfg = s.cfg := rfl
@[simp] theorem emitFwd_frame (c : Consumer) (E : Bytes) (s : State) : (emitFwd c E s).frame = s.frame := rfl
@[simp] theorem emitFwd_pkt (c : Consumer) (E : Bytes) (s : State) : (emitFwd c E s).pkt = s.pkt := rfl
@[simp] theorem emitFwd_lt (c : Consumer) (E : Bytes) (s : State) : (emitFwd c E s).lt = s.lt := rfl
@[simp] theorem emitFwd_prevLt (c : Consumer) (E : Bytes) (s : State) : (emitFwd c E s).prevLt = s.prevLt := rfl
@[simp] theorem emitFwd_prevValid (c : Consumer) (E : Bytes) (s : State) : (emitFwd c E s).prevValid = s.prevValid := rfl
@[simp] theorem emitFwd_tcv (c : Consumer) (E : Bytes) (s : State) : (emitFwd c E s).tcv = s.tcv := rfl
@[simp] theorem emitFwd_rs (c : Consumer) (E : Bytes) (s : State) : (emitFwd c E s).rs = s.rs := rfl
@[simp] theorem emitFwd_gate (c : Consumer) (E : Bytes) (s : State) : (emitFwd c E s).gate = s.gate := rfl
@[simp] theorem emitFwd_returned (c : Consumer) (E : Bytes) (s : State) : (emitFwd c E s).returned = s.returned := rfl
@[simp] theorem emitFwd_booted (c : Consumer) (E : Bytes) (s : State) : (emitFwd c E s).booted = s.booted := rfl
@[simp] theorem emitFwd_inbox (c : Consumer) (E : Bytes) (s : State) : (emitFwd c E s).inbox = s.inbox := rfl
@[simp] theorem emitFwd_out_archive (c : Consumer) (E : Bytes) (s : State) : (emitFwd c E s).out.archive = s.out.archive := rfl
@[simp] theorem emitFwd_out_log (c : Consumer) (E : Bytes) (s : State) : (emitFwd c E s).out.log = s.out.log := rfl
@[simp] theorem emitFwd_out_fwd (c : Consumer) (E : Bytes) (s : State) : (emitFwd c E s).out.fwd = s.out.fwd.set c (s.out.fwd.get c ++ [E]) := rfl
@[simp] theorem emitFwd_out_linkTx (c : Consumer) (E : Bytes) (s : State) : (emitFwd c E s).out.linkTx = s.out.linkTx := rfl
@[simp] theorem emitFwd_out_sink (c : Consumer) (E : Bytes) (s : State) : (emitFwd c E s).out.sink = s.out.sink := rfl
@[simp] theorem emitFwd_out_result (c : Consumer) (E : Bytes) (s : State) : (emitFwd c E s).out.result = s.out.result := rfl
@[simp] theorem emitFwd_out_bcast (c : Consumer) (E : Bytes) (s : State) : (emitFwd c E s).out.bcast = s.out.bcast := rfl

/-! `emitLinkTx` -/

@[simp] theorem emitLinkTx_cfg (Fs : List Bytes) (s : State) : (emitLinkTx Fs s).cfg = s.cfg := rfl
@[simp] theorem emitLinkTx_frame (Fs : List Bytes) (s : State) : (emitLinkTx Fs s).frame = s.frame := rfl
@[simp] theorem emitLinkTx_pkt (Fs : List Bytes) (s : State) : (emitLinkTx Fs s).pkt = s.pkt := rfl
@[simp] theorem emitLinkTx_lt (Fs : List Bytes) (s : State) : (emitLinkTx Fs s).lt = s.lt := rfl
@[simp] theorem emitLinkTx_prevLt (Fs : List Bytes) (s : State) : (emitLinkTx Fs s).prevLt = s.prevLt := rfl
@[simp] theorem emitLinkTx_prevValid (Fs : List Bytes) (s : State) : (emitLinkTx Fs s).prevValid = s.prevValid := rfl
@[simp] theorem emitLinkTx_tcv (Fs : List Bytes) (s : State) : (emitLinkTx Fs s).tcv = s.tcv := rfl
@[simp] theorem emitLinkTx_rs (Fs : List Bytes) (s : State) : (emitLinkTx Fs s).rs = s.rs := rfl
@[simp] theorem emitLinkTx_gate (Fs : List Bytes) (s : State) : (emitLinkTx Fs s).gate = s.gate := rfl
@[simp] theorem emitLinkTx_returned (Fs : List Bytes) (s : State) : (emitLinkTx Fs s).returned = s.returned := rfl
@[simp] theorem emitLinkTx_booted (Fs : List Bytes) (s : State) : (emitLinkTx Fs s).booted = s.booted := rfl
@[simp] theorem emitLinkTx_inbox (Fs : List Bytes) (s : State) : (emitLinkTx Fs s).inbox = s.inbox := rfl
@[simp] theorem emitLinkTx_out_archive (Fs : List Bytes) (s : State) : (emitLinkTx Fs s).out.archive = s.out.archive := rfl
@[simp] theorem emitLinkTx_out_log (Fs : List Bytes) (s : State) : (emitLinkTx Fs s).out.log = s.out.log := rfl
@[simp] theorem emitLinkTx_out_fwd (Fs : List Bytes) (s : State) : (emitLinkTx Fs s).out.fwd = s.out.fwd := rfl
@[simp] theorem emitLinkTx_out_linkTx (Fs : List Bytes) (s : State) : (emitLinkTx Fs s).out.linkTx = s.out.linkTx ++ Fs := rfl
@[simp] theorem emitLinkTx_out_sink (Fs : List Bytes) (s : State) : (emitLinkTx Fs s).out.sink = s.out.sink := rfl
@[simp] theorem emitLinkTx_out_result (Fs : List Bytes) (s : State) : (emitLinkTx Fs s).out.result = s.out.result := rfl
@[simp] theorem emitLinkTx_out_bcast (Fs : List Bytes) (s : State) : (emitLinkTx Fs s).out.bcast = s.out.bcast := rfl

/-! `emitSink` -/

@[simp] theorem emitSink_cfg (k : Reasm) (b : Bytes) (s : State) : (emitSink k b s).cfg = s.cfg := rfl
@[simp] theorem emitSink_frame (k : Reasm) (b : Bytes) (s : State) : (emitSink k b s).frame = s.frame := rfl
@[simp] theorem emitSink_pkt (k : Reasm) (b : Bytes) (s : State) : (emitSink k b s).pkt = s.pkt := rfl
@[simp] theorem emitSink_lt (k : Reasm) (b : Bytes) (s : State) : (emitSink k b s).lt = s.lt := rfl
@[simp] theorem emitSink_prevLt (k : Reasm) (b : Bytes) (s : State) : (emitSink k b s).prevLt = s.prevLt := rfl
@[simp] theorem emitSink_prevValid (k : Reasm) (b : Bytes) (s : State) : (emitSink k b s).prevValid = s.prevValid := rfl
@[simp] theorem emitSink_tcv (k : Reasm) (b : Bytes) (s : State) : (emitSink k b s).tcv = s.tcv := rfl
@[simp] theorem emitSink_rs (k : Reasm) (b : Bytes) (s : State) : (emitSink k b s).rs = s.rs := rfl
@[simp] theorem emitSink_gate (k : Reasm) (b : Bytes) (s : State) : (emitSink k b s).gate = s.gate := rfl
@[simp] theorem emitSink_returned (k : Reasm) (b : Bytes) (s : State) : (emitSink k b s).returned = s.returned := rfl
@[simp] theorem emitSink_booted (k : Reasm) (b : Bytes) (s : State) : (emitSink k b s).booted = s.booted := rfl
@[simp] theorem emitSink_inbox (k : Reasm) (b : Bytes) (s : State) : (emitSink k b s).inbox = s.inbox := rfl
@[simp] theorem emitSink_out_archive (k : Reasm) (b : Bytes) (s : State) : (emitSink k b s).out.archive = s.out.archive := rfl
@[simp] theorem emitSink_out_log (k : Reasm) (b : Bytes) (s : State) : (emitSink k b s).out.log = s.out.log := rfl
@[simp] theorem emitSink_out_fwd (k : Reasm) (b : Bytes) (s : State) : (emitSink k b s).out.fwd = s.out.fwd := rfl
@[simp] theorem emitSink_out_linkTx (k : Reasm) (b : Bytes) (s : State) : (emitSink k b s).out.linkTx = s.out.linkTx := rfl
@[simp] theorem emitSink_out_sink (k : Reasm) (b : Bytes) (s : State) : (emitSink k b s).out.sink = s.out.sink.set k (s.out.sink.get k ++ [b]) := rfl
@[simp] theorem emitSink_out_result (k : Reasm) (b : Bytes) (s : State) : (emitSink k b s).out.result = s.out.result := rfl
@[simp] theorem emitSink_out_bcast (k : Reasm) (b : Bytes) (s : State) : (emitSink k b s).out.bcast = s.out.bcast := rfl

/-! `emitResult` -/

@[simp] theorem emitResult_cfg (sv : Service) (r : GateResult) (s : State) : (emitResult sv r s).cfg = s.cfg := rfl
@[simp] theorem emitResult_frame (sv : Service) (r : GateResult) (s : State) : (emitResult sv r s).frame = s.frame := rfl
@[simp] theorem emitResult_pkt (sv : Service) (r : GateResult) (s : State) : (emitResult sv r s).pkt = s.pkt := rfl
@[simp] theorem emitResult_lt (sv : Service) (r : GateResult) (s : State) : (emitResult sv r s).lt = s.lt := rfl
@[simp] theorem emitResult_prevLt (sv : Service) (r : GateResult) (s : State) : (emitResult sv r s).prevLt = s.prevLt := rfl
@[simp] theorem emitResult_prevValid (sv : Service) (r : GateResult) (s : State) : (emitResult sv r s).prevValid = s.prevValid := rfl
@[simp] theorem emitResult_tcv (sv : Service) (r : GateResult) (s : State) : (emitResult sv r s).tcv = s.tcv := rfl
@[simp] theorem emitResult_rs (sv : Service) (r : GateResult) (s : State) : (emitResult sv r s).rs = s.rs := rfl
@[simp] theorem emitResult_gate (sv : Service) (r : GateResult) (s : State) : (emitResult sv r s).gate = s.gate := rfl
@[simp] theorem emitResult_returned (sv : Service) (r : GateResult) (s : State) : (emitResult sv r s).returned = s.returned := rfl
@[simp] theorem emitResult_booted (sv : Service) (r : GateResult) (s : State) : (emitResult sv r s).booted = s.booted := rfl
@[simp] theorem emitResult_inbox (sv : Service) (r : GateResult) (s : State) : (emitResult sv r s).inbox = s.inbox := rfl
@[simp] theorem emitResult_out_archive (sv : Service) (r : GateResult) (s : State) : (emitResult sv r s).out.archive = s.out.archive := rfl
@[simp] theorem emitResult_out_log (sv : Service) (r : GateResult) (s : State) : (emitResult sv r s).out.log = s.out.log := rfl
@[simp] theorem emitResult_out_fwd (sv : Service) (r : GateResult) (s : State) : (emitResult sv r s).out.fwd = s.out.fwd := rfl
@[simp] theorem emitResult_out_linkTx (sv : Service) (r : GateResult) (s : State) : (emitResult sv r s).out.linkTx = s.out.linkTx := rfl
@[simp] theorem emitResult_out_sink (sv : Service) (r : GateResult) (s : State) : (emitResult sv r s).out.sink = s.out.sink := rfl
@[simp] theorem emitResult_out_result (sv : Service) (r : GateResult) (s : State) : (emitResult sv r s).out.result = s.out.result.set sv (s.out.result.get sv ++ [r]) := rfl
@[simp] theorem emitResult_out_bcast (sv : Service) (r : GateResult) (s : State) : (emitResult sv r s).out.bcast = s.out.bcast := rfl

/-! `emitBcast` -/

@[simp] theorem emitBcast_cfg (t : Time) (s : State) (sv : Service) : (emitBcast t s sv).cfg = s.cfg := rfl
@[simp] theorem emitBcast_frame (t : Time) (s : State) (sv : Service) : (emitBcast t s sv).frame = s.frame := rfl
@[simp] theorem emitBcast_pkt (t : Time) (s : State) (sv : Service) : (emitBcast t s sv).pkt = s.pkt := rfl
@[simp] theorem emitBcast_lt (t : Time) (s : State) (sv : Service) : (emitBcast t s sv).lt = s.lt := rfl
@[simp] theorem emitBcast_prevLt (t : Time) (s : State) (sv : Service) : (emitBcast t s sv).prevLt = s.prevLt := rfl
@[simp] theorem emitBcast_prevValid (t : Time) (s : State) (sv : Service) : (emitBcast t s sv).prevValid = s.prevValid := rfl
@[simp] theorem emitBcast_tcv (t : Time) (s : State) (sv : Service) : (emitBcast t s sv).tcv = s.tcv := rfl
@[simp] theorem emitBcast_rs (t : Time) (s : State) (sv : Service) : (emitBcast t s sv).rs = s.rs := rfl
@[simp] theorem emitBcast_gate (t : Time) (s : State) (sv : Service) : (emitBcast t s sv).gate = s.gate := rfl
@[simp] theorem emitBcast_returned (t : Time) (s : State) (sv : Service) : (emitBcast t s sv).returned = s.returned := rfl
@[simp] theorem emitBcast_booted (t : Time) (s : State) (sv : Service) : (emitBcast t s sv).booted = s.booted := rfl
@[simp] theorem emitBcast_inbox (t : Time) (s : State) (sv : Service) : (emitBcast t s sv).inbox = s.inbox := rfl
@[simp] theorem emitBcast_out_archive (t : Time) (s : State) (sv : Service) : (emitBcast t s sv).out.archive = s.out.archive := rfl
@[simp] theorem emitBcast_out_log (t : Time) (s : State) (sv : Service) : (emitBcast t s sv).out.log = s.out.log := rfl
@[simp] theorem emitBcast_out_fwd (t : Time) (s : State) (sv : Service) : (emitBcast t s sv).out.fwd = s.out.fwd := rfl
@[simp] theorem emitBcast_out_linkTx (t : Time) (s : State) (sv : Service) : (emitBcast t s sv).out.linkTx = s.out.linkTx := rfl
@[simp] theorem emitBcast_out_sink (t : Time) (s : State) (sv : Service) : (emitBcast t s sv).out.sink = s.out.sink := rfl
@[simp] theorem emitBcast_out_result (t : Time) (s : State) (sv : Service) : (emitBcast t s sv).out.result = s.out.result := rfl
@[simp] theorem emitBcast_out_bcast (t : Time) (s : State) (sv : Service) : (emitBcast t s sv).out.bcast = s.out.bcast.set sv (s.out.bcast.get sv ++ [t]) := rfl

/-! `emitReturn` -/

@[simp] theorem emitReturn_cfg (v : ReturnValue) (s : State) : (emitReturn v s).cfg = s.cfg := rfl
@[simp] theorem emitReturn_frame (v : ReturnValue) (s : State) : (emitReturn v s).frame = s.frame := rfl
@[simp] theorem emitReturn_pkt (v : ReturnValue) (s : State) : (emitReturn v s).pkt = s.pkt := rfl
@[simp] theorem emitReturn_lt (v : ReturnValue) (s : State) : (emitReturn v s).lt = s.lt := rfl
@[simp] theorem emitReturn_prevLt (v : ReturnValue) (s : State) : (emitReturn v s).prevLt = s.prevLt := rfl
@[simp] theorem emitReturn_prevValid (v : ReturnValue) (s : State) : (emitReturn v s).prevValid = s.prevValid := rfl
@[simp] theorem emitReturn_tcv (v : ReturnValue) (s : State) : (emitReturn v s).tcv = s.tcv := rfl
@[simp] theorem emitReturn_rs (v : ReturnValue) (s : State) : (emitReturn v s).rs = s.rs := rfl
@[simp] theorem emitReturn_gate (v : ReturnValue) (s : State) : (emitReturn v s).gate = s.gate := rfl
@[simp] theorem emitReturn_out (v : ReturnValue) (s : State) : (emitReturn v s).out = s.out := rfl
@[simp] theorem emitReturn_returned (v : ReturnValue) (s : State) : (emitReturn v s).returned = s.returned ++ [v] := rfl
@[simp] theorem emitReturn_booted (v : ReturnValue) (s : State) : (emitReturn v s).booted = s.booted := rfl
@[simp] theorem emitReturn_inbox (v : ReturnValue) (s : State) : (emitReturn v s).inbox = s.inbox := rfl

/-! `loadFrame` -/

@[simp] theorem loadFrame_cfg (b : Bytes) (s : State) : (loadFrame b s).cfg = s.cfg := rfl
@[simp] theorem loadFrame_frame (b : Bytes) (s : State) : (loadFrame b s).frame = b := rfl
@[simp] theorem loadFrame_pkt (b : Bytes) (s : State) : (loadFrame b s).pkt = s.pkt := rfl
@[simp] theorem loadFrame_lt (b : Bytes) (s : State) : (loadFrame b s).lt = s.lt := rfl
@[simp] theorem loadFrame_prevLt (b : Bytes) (s : State) : (loadFrame b s).prevLt = s.prevLt := rfl
@[simp] theorem loadFrame_prevValid (b : Bytes) (s : State) : (loadFrame b s).prevValid = s.prevValid := rfl
@[simp] theorem loadFrame_tcv (b : Bytes) (s : State) : (loadFrame b s).tcv = s.tcv := rfl
@[simp] theorem loadFrame_rs (b : Bytes) (s : State) : (loadFrame b s).rs = s.rs := rfl
@[simp] theorem loadFrame_gate (b : Bytes) (s : State) : (loadFrame b s).gate = s.gate := rfl
@[simp] theorem loadFrame_out (b : Bytes) (s : State) : (loadFrame b s).out = s.out := rfl
@[simp] theorem loadFrame_returned (b : Bytes) (s : State) : (loadFrame b s).returned = s.returned := rfl
@[simp] theorem loadFrame_booted (b : Bytes) (s : State) : (loadFrame b s).booted = s.booted := rfl
@[simp] theorem loadFrame_inbox (b : Bytes) (s : State) : (loadFrame b s).inbox = s.inbox := rfl

/-! `loadPkt` -/

@[simp] theorem loadPkt_cfg (p : Packet) (s : State) : (loadPkt p s).cfg = s.cfg := rfl
@[simp] theorem loadPkt_frame (p : Packet) (s : State) : (loadPkt p s).frame = s.frame := rfl
@[simp] theorem loadPkt_pkt (p : Packet) (s : State) : (loadPkt p s).pkt = p := rfl
@[simp] theorem loadPkt_lt (p : Packet) (s : State) : (loadPkt p s).lt = s.lt := rfl
@[simp] theorem loadPkt_prevLt (p : Packet) (s : State) : (loadPkt p s).prevLt = s.prevLt := rfl
@[simp] theorem loadPkt_prevValid (p : Packet) (s : State) : (loadPkt p s).prevValid = s.prevValid := rfl
@[simp] theorem loadPkt_tcv (p : Packet) (s : State) : (loadPkt p s).tcv = s.tcv := rfl
@[simp] theorem loadPkt_rs (p : Packet) (s : State) : (loadPkt p s).rs = s.rs := rfl
@[simp] theorem loadPkt_gate (p : Packet) (s : State) : (loadPkt p s).gate = s.gate := rfl
@[simp] theorem loadPkt_out (p : Packet) (s : State) : (loadPkt p s).out = s.out := rfl
@[simp] theorem loadPkt_returned (p : Packet) (s : State) : (loadPkt p s).returned = s.returned := rfl
@[simp] theorem loadPkt_booted (p : Packet) (s : State) : (loadPkt p s).booted = s.booted := rfl
@[simp] theorem loadPkt_inbox (p : Packet) (s : State) : (loadPkt p s).inbox = s.inbox := rfl

/-! `setLt` -/

@[simp] theorem setLt_cfg (t : Time) (s : State) : (setLt t s).cfg = s.cfg := rfl
@[simp] theorem setLt_frame (t : Time) (s : State) : (setLt t s).frame = s.frame := rfl
@[simp] theorem setLt_pkt (t : Time) (s : State) : (setLt t s).pkt = s.pkt := rfl
@[simp] theorem setLt_lt (t : Time) (s : State) : (setLt t s).lt = t := rfl
@[simp] theorem setLt_prevLt (t : Time) (s : State) : (setLt t s).prevLt = s.prevLt := rfl
@[simp] theorem setLt_prevValid (t : Time) (s : State) : (setLt t s).prevValid = s.prevValid := rfl
@[simp] theorem setLt_tcv (t : Time) (s : State) : (setLt t s).tcv = s.tcv := rfl
@[simp] theorem setLt_rs (t : Time) (s : State) : (setLt t s).rs = s.rs := rfl
@[simp] theorem setLt_gate (t : Time) (s : State) : (setLt t s).gate = s.gate := rfl
@[simp] theorem setLt_out (t : Time) (s : State) : (setLt t s).out = s.out := rfl
@[simp] theorem setLt_returned (t : Time) (s : State) : (setLt t s).returned = s.returned := rfl
@[simp] theorem setLt_booted (t : Time) (s : State) : (setLt t s).booted = s.booted := rfl
@[simp] theorem setLt_inbox (t : Time) (s : State) : (setLt t s).inbox = s.inbox := rfl

/-! `retainLt` -/

@[simp] theorem retainLt_cfg (s : State) : (retainLt s).cfg = s.cfg := rfl
@[simp] theorem retainLt_frame (s : State) : (retainLt s).frame = s.frame := rfl
@[simp] theorem retainLt_pkt (s : State) : (retainLt s).pkt = s.pkt := rfl
@[simp] theorem retainLt_lt (s : State) : (retainLt s).lt = s.lt := rfl
@[simp] theorem retainLt_prevLt (s : State) : (retainLt s).prevLt = s.lt := rfl
@[simp] theorem retainLt_prevValid (s : State) : (retainLt s).prevValid = true := rfl
@[simp] theorem retainLt_tcv (s : State) : (retainLt s).tcv = s.tcv := rfl
@[simp] theorem retainLt_rs (s : State) : (retainLt s).rs = s.rs := rfl
@[simp] theorem retainLt_gate (s : State) : (retainLt s).gate = s.gate := rfl
@[simp] theorem retainLt_out (s : State) : (retainLt s).out = s.out := rfl
@[simp] theorem retainLt_returned (s : State) : (retainLt s).returned = s.returned := rfl
@[simp] theorem retainLt_booted (s : State) : (retainLt s).booted = s.booted := rfl
@[simp] theorem retainLt_inbox (s : State) : (retainLt s).inbox = s.inbox := rfl

/-! `setTcv` -/

@[simp] theorem setTcv_cfg (sv : Service) (t : TcvState) (s : State) : (setTcv sv t s).cfg = s.cfg := rfl
@[simp] theorem setTcv_frame (sv : Service) (t : TcvState) (s : State) : (setTcv sv t s).frame = s.frame := rfl
@[simp] theorem setTcv_pkt (sv : Service) (t : TcvState) (s : State) : (setTcv sv t s).pkt = s.pkt := rfl
@[simp] theorem setTcv_lt (sv : Service) (t : TcvState) (s : State) : (setTcv sv t s).lt = s.lt := rfl
@[simp] theorem setTcv_prevLt (sv : Service) (t : TcvState) (s : State) : (setTcv sv t s).prevLt = s.prevLt := rfl
@[simp] theorem setTcv_prevValid (sv : Service) (t : TcvState) (s : State) : (setTcv sv t s).prevValid = s.prevValid := rfl
@[simp] theorem setTcv_tcv (sv : Service) (t : TcvState) (s : State) : (setTcv sv t s).tcv = s.tcv.set sv t := rfl
@[simp] theorem setTcv_rs (sv : Service) (t : TcvState) (s : State) : (setTcv sv t s).rs = s.rs := rfl
@[simp] theorem setTcv_gate (sv : Service) (t : TcvState) (s : State) : (setTcv sv t s).gate = s.gate := rfl
@[simp] theorem setTcv_out (sv : Service) (t : TcvState) (s : State) : (setTcv sv t s).out = s.out := rfl
@[simp] theorem setTcv_returned (sv : Service) (t : TcvState) (s : State) : (setTcv sv t s).returned = s.returned := rfl
@[simp] theorem setTcv_booted (sv : Service) (t : TcvState) (s : State) : (setTcv sv t s).booted = s.booted := rfl
@[simp] theorem setTcv_inbox (sv : Service) (t : TcvState) (s : State) : (setTcv sv t s).inbox = s.inbox := rfl

/-! `setRs` -/

@[simp] theorem setRs_cfg (k : Reasm) (r : ReasmState) (s : State) : (setRs k r s).cfg = s.cfg := rfl
@[simp] theorem setRs_frame (k : Reasm) (r : ReasmState) (s : State) : (setRs k r s).frame = s.frame := rfl
@[simp] theorem setRs_pkt (k : Reasm) (r : ReasmState) (s : State) : (setRs k r s).pkt = s.pkt := rfl
@[simp] theorem setRs_lt (k : Reasm) (r : ReasmState) (s : State) : (setRs k r s).lt = s.lt := rfl
@[simp] theorem setRs_prevLt (k : Reasm) (r : ReasmState) (s : State) : (setRs k r s).prevLt = s.prevLt := rfl
@[simp] theorem setRs_prevValid (k : Reasm) (r : ReasmState) (s : State) : (setRs k r s).prevValid = s.prevValid := rfl
@[simp] theorem setRs_tcv (k : Reasm) (r : ReasmState) (s : State) : (setRs k r s).tcv = s.tcv := rfl
@[simp] theorem setRs_rs (k : Reasm) (r : ReasmState) (s : State) : (setRs k r s).rs = s.rs.set k r := rfl
@[simp] theorem setRs_gate (k : Reasm) (r : ReasmState) (s : State) : (setRs k r s).gate = s.gate := rfl
@[simp] theorem setRs_out (k : Reasm) (r : ReasmState) (s : State) : (setRs k r s).out = s.out := rfl
@[simp] theorem setRs_returned (k : Reasm) (r : ReasmState) (s : State) : (setRs k r s).returned = s.returned := rfl
@[simp] theorem setRs_booted (k : Reasm) (r : ReasmState) (s : State) : (setRs k r s).booted = s.booted := rfl
@[simp] theorem setRs_inbox (k : Reasm) (r : ReasmState) (s : State) : (setRs k r s).inbox = s.inbox := rfl

/-! `setGate` -/

@[simp] theorem setGate_cfg (sv : Service) (g : GateCell) (s : State) : (setGate sv g s).cfg = s.cfg := rfl
@[simp] theorem setGate_frame (sv : Service) (g : GateCell) (s : State) : (setGate sv g s).frame = s.frame := rfl
@[simp] theorem setGate_pkt (sv : Service) (g : GateCell) (s : State) : (setGate sv g s).pkt = s.pkt := rfl
@[simp] theorem setGate_lt (sv : Service) (g : GateCell) (s : State) : (setGate sv g s).lt = s.lt := rfl
@[simp] theorem setGate_prevLt (sv : Service) (g : GateCell) (s : State) : (setGate sv g s).prevLt = s.prevLt := rfl
@[simp] theorem setGate_prevValid (sv : Service) (g : GateCell) (s : State) : (setGate sv g s).prevValid = s.prevValid := rfl
@[simp] theorem setGate_tcv (sv : Service) (g : GateCell) (s : State) : (setGate sv g s).tcv = s.tcv := rfl
@[simp] theorem setGate_rs (sv : Service) (g : GateCell) (s : State) : (setGate sv g s).rs = s.rs := rfl
@[simp] theorem setGate_gate (sv : Service) (g : GateCell) (s : State) : (setGate sv g s).gate = s.gate.set sv g := rfl
@[simp] theorem setGate_out (sv : Service) (g : GateCell) (s : State) : (setGate sv g s).out = s.out := rfl
@[simp] theorem setGate_returned (sv : Service) (g : GateCell) (s : State) : (setGate sv g s).returned = s.returned := rfl
@[simp] theorem setGate_booted (sv : Service) (g : GateCell) (s : State) : (setGate sv g s).booted = s.booted := rfl
@[simp] theorem setGate_inbox (sv : Service) (g : GateCell) (s : State) : (setGate sv g s).inbox = s.inbox := rfl

end Sys2Proof.Machine
end

