-- ==== Sys2Proof/Laws/Ops.lean ====
section
/-! SUPPORT. One lemma per shared operation that says everything it does; later proofs cite these instead of unfolding the
operations. -/
namespace Sys2Proof.Machine

theorem emitArchive_eq (b : Bytes) (s : State) :
    emitArchive b s = { s with out := { s.out with archive := s.out.archive ++ [b] } } := rfl

theorem emitLog_eq (e : LogEvent) (s : State) :
    emitLog e s = { s with out := { s.out with log := s.out.log ++ [e] } } := rfl

theorem emitAlert_eq (code aux : Byte) (src : Option Packet) (s : State) :
    emitAlert code aux src s =
      { s with out := { s.out with fwd := s.out.fwd.set .fdir (s.out.fwd.get .fdir ++ [alert code aux src]) } } := rfl

/-- `success(s)`, R244. -/
theorem gateSuccess_eq (sv : Service) (s : State) :
    gateSuccess sv s =
      { s with
        tcv := s.tcv.set sv { s.tcv.get sv with acceptReceived := false, executeReceived := false }
        gate := s.gate.set sv { s.gate.get sv with waiting := false }
        out := { s.out with
          log := s.out.log ++ [.verifySuccess (s.gate.get sv).opcode]
          result := s.out.result.set sv (s.out.result.get sv ++ [.ok]) } } := rfl

/-- `timedout(s)`, R246. -/
theorem gateTimedOut_eq (sv : Service) (s : State) :
    gateTimedOut sv s =
      { s with
        gate := s.gate.set sv { s.gate.get sv with waiting := false }
        out := { s.out with
          log := s.out.log ++ [.verificationTimeout (s.gate.get sv).opcode]
          fwd := s.out.fwd.set .fdir (s.out.fwd.get .fdir ++ [alert (s.gate.get sv).opcode 0 none])
          result := s.out.result.set sv (s.out.result.get sv ++ [.fail]) } } := rfl

/-- `violation(k)`, R226. -/
theorem violation_eq (k : Reasm) (src : Packet) (s : State) :
    violation k src s =
      { s with
        rs := s.rs.set k { s.rs.get k with phase := .idle, lastSequenceCount := 0, sequenceOffset := 0, buffer := [] }
        out := { s.out with
          fwd := s.out.fwd.set .fdir
            (s.out.fwd.get .fdir ++ [alert s.cfg.codes.seqPacketRejected (reasmNumber k) (some src)]) } } := rfl

/-- `flush(k)`, R227. -/
theorem flush_eq (k : Reasm) (s : State) :
    flush k s =
      { s with
        rs := s.rs.set k { s.rs.get k with phase := .idle, lastSequenceCount := 0, sequenceOffset := 0, buffer := [] }
        out := { s.out with sink := s.out.sink.set k (s.out.sink.get k ++ [(s.rs.get k).buffer]) } } := rfl

theorem foldl_emitBcast (t : Time) (l : List Service) (s : State) :
    l.foldl (emitBcast t) s =
      { s with out := { s.out with bcast := (l.foldl (emitBcast t) s).out.bcast } } := by
  induction l generalizing s with
  | nil => rfl
  | cons a l ih =>
    rw [List.foldl_cons, ih]
    rfl

theorem foldl_emitBcast_get (t : Time) (l : List Service) (s : State) (sv : Service) :
    (l.foldl (emitBcast t) s).out.bcast.get sv = s.out.bcast.get sv ++ List.replicate (l.count sv) t := by
  induction l generalizing s with
  | nil => simp
  | cons a l ih =>
    rw [List.foldl_cons, ih]
    by_cases h : sv = a
    · subst h
      simp [List.replicate_succ]
    · have h' : ¬ a = sv := fun e => h e.symm
      simp [h, h']

/-- `for every s in SERVICES: emit BCAST[s](LT)`, R208: only the `BCAST` ports change, and each gets one event for every time
its service is listed. -/
theorem emitBcastAll_spec (s : State) :
    ∃ b : PerService (List Time), emitBcastAll s = { s with out := { s.out with bcast := b } } ∧
      ∀ sv, b.get sv = s.out.bcast.get sv ++ List.replicate (s.cfg.services.count sv) s.lt :=
  ⟨_, foldl_emitBcast s.lt s.cfg.services s, fun sv => foldl_emitBcast_get s.lt s.cfg.services s sv⟩

/-- The broadcast that goes with a write of `LT` (P19). -/
theorem broadcastWrite_spec (s : State) :
    ∃ b : PerService (List Time), broadcastWrite s = { s with out := { s.out with bcast := b } } ∧
      ∀ sv, b.get sv = s.out.bcast.get sv ++
        List.replicate (if s.cfg.bcastPolicy.onWrite then s.cfg.services.count sv else 0) s.lt := by
  unfold broadcastWrite
  split
  · simpa using emitBcastAll_spec s
  · exact ⟨s.out.bcast, rfl, by simp⟩

/-- The adoption of R196 and R265: `LT`, `PREV_LT` and `PREV_VALID` are written, one alert is sent, and the new value is
broadcast. -/
theorem raiseError_desync_spec (src : Packet) (s : State) :
    ∃ b : PerService (List Time), raiseError (.desync src) s =
      { s with
        lt := adoptedTime s.cfg.ltWidths src.ts
        prevLt := s.lt
        prevValid := true
        out := { s.out with
          fwd := s.out.fwd.set .fdir (s.out.fwd.get .fdir ++ [alert s.cfg.codes.timeOutOfSync 0 (some src)])
          bcast := b } } ∧
      ∀ sv, b.get sv = s.out.bcast.get sv ++
        List.replicate (if s.cfg.bcastPolicy.onWrite then s.cfg.services.count sv else 0)
          (adoptedTime s.cfg.ltWidths src.ts) := by
  obtain ⟨b, h1, h2⟩ := broadcastWrite_spec (emitAlert s.cfg.codes.timeOutOfSync 0 (some src)
    (setLt (adoptedTime s.cfg.ltWidths src.ts) (retainLt s)))
  exact ⟨b, h1.trans rfl, h2⟩

/-- The signal of R243 either does nothing or is the success. -/
theorem signal_cases (sv : Service) (s : State) :
    ((s.gate.get sv).waiting = true ∧ satisfied s sv = true ∧ signal sv s = gateSuccess sv s) ∨
      (¬ ((s.gate.get sv).waiting = true ∧ satisfied s sv = true) ∧ signal sv s = s) := by
  unfold signal
  by_cases h : ((s.gate.get sv).waiting && satisfied s sv) = true
  · simp only [Bool.and_eq_true] at h
    exact .inl ⟨h.1, h.2, by simp [h.1, h.2]⟩
  · refine .inr ⟨by simpa using h, by simp [h]⟩

/-- A value that fits its register is stored as it is. -/
theorem fitTime_of_lt {w v : Nat} (h : v < 2 ^ w) : fitTime w v = v := by simp [fitTime, h]

/-- A register of width `w` never holds more. -/
theorem fitTime_lt (w v : Nat) : fitTime w v < 2 ^ w := by
  unfold fitTime
  split
  · assumption
  · exact Nat.mod_lt _ (Nat.two_pow_pos w)

/-- What a step can do, once for all: idle, an operation, the reset, or a configuration load. -/
theorem step_cases {s t : State} (h : step s = .next t) :
    (s.inbox = [] ∧ t = s) ∨
    (∃ r rest i, s.inbox = .request r :: rest ∧ requested s.cfg r.words = .ok i ∧ permits s.cfg r.agent i = true ∧
      exec i (taken rest s) = .next t) ∨
    (∃ rest, s.inbox = .reset :: rest ∧ t = assertReset { s with inbox := rest }) ∨
    (∃ c rest, s.inbox = .loadConfig c :: rest ∧ s.booted = false ∧ c.wf = true ∧
      t = installConfig c { s with inbox := rest }) := by
  unfold step runNext at h
  split at h
  · rename_i hi
    exact .inl ⟨hi, by simpa using h.symm⟩
  · rename_i e rest hi
    unfold runEvent at h
    split at h
    · rename_i r
      refine .inr (.inl ?_)
      unfold runRequest at h
      split at h
      · cases h
      · rename_i i hd
        split at h
        · exact ⟨r, rest, i, hi, hd, by assumption, h⟩
        · cases h
    · refine .inr (.inr (.inl ⟨rest, hi, by simpa using h.symm⟩))
    · rename_i c
      refine .inr (.inr (.inr ⟨c, rest, hi, ?_⟩))
      unfold loadConfig at h
      split at h
      · cases h
      · rename_i hb
        split at h
        · rename_i hc
          exact ⟨by simpa using hb, hc, by simpa using h.symm⟩
        · cases h

/-- RX runs the operation its packet selects: the meaning of a dispatch operation is the one the Router performs (R174). -/
theorem exec_dispatchInstr (op : DispatchOp) (p : Packet) (s : State) :
    exec (dispatchInstr op p) s = .next (runDispatchOp op p s) := by
  cases op <;> rfl

/-- Reading a range just written gives what was written (R16). -/
theorem overwrite_read (b v : Bytes) (addr : Nat) (h : addr + v.length ≤ b.length) :
    ((overwrite b addr v).drop addr).take v.length = v := by
  have h1 : (b.take addr).length = addr := by simp; omega
  unfold overwrite
  rw [List.append_assoc, List.drop_append_of_le_length (by omega)]
  simp [List.drop_eq_nil_of_le (by omega : (b.take addr).length ≤ addr)]

/-- A write inside a buffer keeps its length (R37, R60). -/
theorem length_overwrite (b v : Bytes) (addr : Nat) (h : addr + v.length ≤ b.length) :
    (overwrite b addr v).length = b.length := by
  simp [overwrite]
  omega

/-- A write leaves every other byte of the buffer alone. -/
theorem overwrite_other (b v : Bytes) (addr i : Nat) (h : addr + v.length ≤ b.length)
    (hi : i < addr ∨ addr + v.length ≤ i) : (overwrite b addr v)[i]? = b[i]? := by
  have h1 : (b.take addr).length = addr := by simp; omega
  unfold overwrite
  rcases hi with hi | hi
  · rw [List.append_assoc, List.getElem?_append_left (by omega)]
    simp [hi]
  · rw [List.getElem?_append_right (by simp; omega), List.getElem?_drop]
    congr 1
    simp
    omega

/-- `MemWrite` keeps the canonical form of the buffers. -/
theorem memWrite_wf {m m' : Spaces} {sp : Space} {addr : Nat} {v : Bytes} (h : memWrite m sp addr v = some m')
    (hw : Memory.wf m.state = true) : Memory.wf m'.state = true := by
  unfold memWrite at h
  split at h
  · rename_i hl
    have hlen := length_overwrite _ v addr hl
    cases sp with
    | frame =>
      simp only [Option.some.injEq] at h
      subst h
      simp_all [Memory.wf, spaceBytes]
    | payload =>
      simp only [Option.some.injEq] at h
      subst h
      simp_all [Memory.wf, spaceBytes]
    | env =>
      simp only [Option.some.injEq] at h
      subst h
      exact hw
    | rbuf k =>
      simp only [Option.some.injEq] at h
      subst h
      cases k <;> simp_all [Memory.wf, spaceBytes]
  · cases h

/-- The frame latch keeps the canonical form: it is loaded with 152 bytes only. -/
theorem loadFrame_wf {s : State} {b : Bytes} (hb : b.length = 152) (hw : Memory.wf s = true) :
    Memory.wf (loadFrame b s) = true := by
  simp_all [Memory.wf]

/-- The packet registers keep the canonical form: a payload has 137 bytes. -/
theorem loadPkt_wf {s : State} {p : Packet} (hp : p.payload.length = 137) (hw : Memory.wf s = true) :
    Memory.wf (loadPkt p s) = true := by
  simp_all [Memory.wf]

/-- A session write keeps the canonical form when the buffer stays within 256 fragments (R34). -/
theorem setRs_wf {s : State} {k : Reasm} {r : ReasmState} (hr : r.buffer.length ≤ 256 * s.cfg.fragSlice.length)
    (hw : Memory.wf s = true) : Memory.wf (setRs k r s) = true := by
  cases k <;> simp_all [Memory.wf]

/-- The buffers are in canonical form after reset. -/
theorem reset_memory_wf : Memory.wf State.reset = true := by
  simp [Memory.wf, State.reset, State.resetWith, zeroPacket, PerReasm.get, resetReasm]

end Sys2Proof.Machine
end

