-- ==== Sys2Proof/Laws/PerInstr.lean ====
section
/-! SUPPORT. What holds of every operation as syntax, one lemma per constructor: the encoder puts it on the channel, and under
the code, that `30_encoding.md` R107 to R109 give it, and an agent may request it by itself exactly when it is on a port. -/
namespace Sys2Proof.Laws

/-- The channel of an encoded operation with the code that selects on it; a frame selects by its own bytes. -/
inductive Channel where
  | frame152
  | port (code : Byte)
  | seq2 (flags : BitVec 2)
deriving DecidableEq, Repr

/-- The channel of a request's words. -/
def channelOf : Words → Channel
  | .frame152 _ => .frame152
  | .port code _ => .port code
  | .seq2 flags _ => .seq2 flags

/-- The channel and the code of an operation, as R107 to R109 list them. -/
def tableChannel : Instr → Channel
  | .tcvAccOk _ => .frame152
  | .tcvAccFail _ => .frame152
  | .tcvExeOk _ => .frame152
  | .tcvExeFail _ => .frame152
  | .hk10 _ => .frame152
  | .hk12 _ => .frame152
  | .hk25 _ => .frame152
  | .hk26 _ => .frame152
  | .evt1 _ => .frame152
  | .evt2 _ => .frame152
  | .evt3 _ => .frame152
  | .evt4 _ => .frame152
  | .mem6 _ => .frame152
  | .mem10 _ => .frame152
  | .time2 _ => .frame152
  | .sched4 _ => .frame152
  | .fdirFwd _ => .frame152
  | .fletcher16 _ _ _ => .port 0x01
  | .encode _ _ => .port 0x02
  | .decode _ => .port 0x03
  | .verify _ => .port 0x04
  | .rx _ => .port 0x10
  | .tc _ _ _ _ _ _ _ => .port 0x11
  | .ltSet _ _ _ _ => .port 0x12
  | .bcast => .port 0x13
  | .await _ _ _ => .port 0x20
  | .tick => .port 0x21
  | .seqCont _ _ _ _ => .seq2 0b00
  | .seqFirst _ _ _ _ => .seq2 0b01
  | .seqLast _ _ _ _ => .seq2 0b10
  | .seqStandalone _ _ _ _ => .seq2 0b11

/-- The encoder puts the operation on its channel; an operation that some agent may request by itself is one of a port, and
every operation of a port may be requested by some agent (R174, R233, R279). -/
def EncodesOnItsChannel.Statement (i : Instr) : Prop :=
  (∀ c, channelOf (encode c i) = tableChannel i) ∧
    ((∃ c a, permits c a i = true) ↔ ∃ code, tableChannel i = .port code)

/-- An operation that no agent requests and that is on no port. -/
theorem channel_of_internal {i : Instr} (h : ∀ c, channelOf (encode c i) = tableChannel i)
    (hp : ∀ c a, permits c a i = false) (ht : ∀ code, tableChannel i ≠ .port code) : EncodesOnItsChannel.Statement i :=
  ⟨h, fun ⟨c, a, hc⟩ => by simp [hp c a] at hc, fun ⟨code, hc⟩ => absurd hc (ht code)⟩

/-- An operation of a port, with an agent that may request it. -/
theorem channel_of_port {i : Instr} (h : ∀ c, channelOf (encode c i) = tableChannel i) (a : Agent)
    (hp : permits bootConfig a i = true) {code : Byte} (ht : tableChannel i = .port code) : EncodesOnItsChannel.Statement i :=
  ⟨h, fun _ => ⟨code, ht⟩, fun _ => ⟨bootConfig, a, hp⟩⟩

theorem EncodesOnItsChannel.tcvAccOk (p : Packet) : EncodesOnItsChannel.Statement (.tcvAccOk p) :=
  channel_of_internal (fun _ => rfl) (fun _ _ => rfl) (by simp [tableChannel])

theorem EncodesOnItsChannel.tcvAccFail (p : Packet) : EncodesOnItsChannel.Statement (.tcvAccFail p) :=
  channel_of_internal (fun _ => rfl) (fun _ _ => rfl) (by simp [tableChannel])

theorem EncodesOnItsChannel.tcvExeOk (p : Packet) : EncodesOnItsChannel.Statement (.tcvExeOk p) :=
  channel_of_internal (fun _ => rfl) (fun _ _ => rfl) (by simp [tableChannel])

theorem EncodesOnItsChannel.tcvExeFail (p : Packet) : EncodesOnItsChannel.Statement (.tcvExeFail p) :=
  channel_of_internal (fun _ => rfl) (fun _ _ => rfl) (by simp [tableChannel])

theorem EncodesOnItsChannel.hk10 (p : Packet) : EncodesOnItsChannel.Statement (.hk10 p) :=
  channel_of_internal (fun _ => rfl) (fun _ _ => rfl) (by simp [tableChannel])

theorem EncodesOnItsChannel.hk12 (p : Packet) : EncodesOnItsChannel.Statement (.hk12 p) :=
  channel_of_internal (fun _ => rfl) (fun _ _ => rfl) (by simp [tableChannel])

theorem EncodesOnItsChannel.hk25 (p : Packet) : EncodesOnItsChannel.Statement (.hk25 p) :=
  channel_of_internal (fun _ => rfl) (fun _ _ => rfl) (by simp [tableChannel])

theorem EncodesOnItsChannel.hk26 (p : Packet) : EncodesOnItsChannel.Statement (.hk26 p) :=
  channel_of_internal (fun _ => rfl) (fun _ _ => rfl) (by simp [tableChannel])

theorem EncodesOnItsChannel.evt1 (p : Packet) : EncodesOnItsChannel.Statement (.evt1 p) :=
  channel_of_internal (fun _ => rfl) (fun _ _ => rfl) (by simp [tableChannel])

theorem EncodesOnItsChannel.evt2 (p : Packet) : EncodesOnItsChannel.Statement (.evt2 p) :=
  channel_of_internal (fun _ => rfl) (fun _ _ => rfl) (by simp [tableChannel])

theorem EncodesOnItsChannel.evt3 (p : Packet) : EncodesOnItsChannel.Statement (.evt3 p) :=
  channel_of_internal (fun _ => rfl) (fun _ _ => rfl) (by simp [tableChannel])

theorem EncodesOnItsChannel.evt4 (p : Packet) : EncodesOnItsChannel.Statement (.evt4 p) :=
  channel_of_internal (fun _ => rfl) (fun _ _ => rfl) (by simp [tableChannel])

theorem EncodesOnItsChannel.mem6 (p : Packet) : EncodesOnItsChannel.Statement (.mem6 p) :=
  channel_of_internal (fun _ => rfl) (fun _ _ => rfl) (by simp [tableChannel])

theorem EncodesOnItsChannel.mem10 (p : Packet) : EncodesOnItsChannel.Statement (.mem10 p) :=
  channel_of_internal (fun _ => rfl) (fun _ _ => rfl) (by simp [tableChannel])

theorem EncodesOnItsChannel.time2 (p : Packet) : EncodesOnItsChannel.Statement (.time2 p) :=
  channel_of_internal (fun _ => rfl) (fun _ _ => rfl) (by simp [tableChannel])

theorem EncodesOnItsChannel.sched4 (p : Packet) : EncodesOnItsChannel.Statement (.sched4 p) :=
  channel_of_internal (fun _ => rfl) (fun _ _ => rfl) (by simp [tableChannel])

theorem EncodesOnItsChannel.fdirFwd (p : Packet) : EncodesOnItsChannel.Statement (.fdirFwd p) :=
  channel_of_internal (fun _ => rfl) (fun _ _ => rfl) (by simp [tableChannel])

theorem EncodesOnItsChannel.fletcher16 (d : Bytes) (o n : Nat) : EncodesOnItsChannel.Statement (.fletcher16 d o n) :=
  channel_of_port (fun _ => rfl) .component rfl rfl

theorem EncodesOnItsChannel.encode (h : Header) (p : Bytes) : EncodesOnItsChannel.Statement (.encode h p) :=
  channel_of_port (fun _ => rfl) .component rfl rfl

theorem EncodesOnItsChannel.decode (F : Bytes) : EncodesOnItsChannel.Statement (.decode F) :=
  channel_of_port (fun _ => rfl) .component rfl rfl

theorem EncodesOnItsChannel.verify (p : Packet) : EncodesOnItsChannel.Statement (.verify p) :=
  channel_of_port (fun _ => rfl) .component rfl rfl

theorem EncodesOnItsChannel.rx (F : Bytes) : EncodesOnItsChannel.Statement (.rx F) :=
  channel_of_port (fun _ => rfl) .link rfl rfl

theorem EncodesOnItsChannel.tc (s d svc sub k : Byte) (n : Nat) (a : Bytes) : EncodesOnItsChannel.Statement (.tc s d svc sub k n a) :=
  channel_of_port (fun _ => rfl) (.service .hk) rfl rfl

theorem EncodesOnItsChannel.ltSet (d h m s : Nat) : EncodesOnItsChannel.Statement (.ltSet d h m s) :=
  channel_of_port (fun _ => rfl) .host rfl rfl

theorem EncodesOnItsChannel.bcast : EncodesOnItsChannel.Statement .bcast :=
  channel_of_port (fun _ => rfl) .host rfl rfl

theorem EncodesOnItsChannel.await (sv : Service) (t : Nat) (o : Byte) :
    EncodesOnItsChannel.Statement (.await sv t o) :=
  channel_of_port (fun _ => rfl) (.service sv) (by simp [permits]) rfl

theorem EncodesOnItsChannel.tick : EncodesOnItsChannel.Statement .tick :=
  channel_of_port (fun _ => rfl) .timeBase rfl rfl

theorem EncodesOnItsChannel.seqCont (k : Reasm) (n : Byte) (frag : Bytes) (src : Packet) : EncodesOnItsChannel.Statement (.seqCont k n frag src) :=
  channel_of_internal (fun _ => rfl) (fun _ _ => rfl) (by simp [tableChannel])

theorem EncodesOnItsChannel.seqFirst (k : Reasm) (n : Byte) (frag : Bytes) (src : Packet) : EncodesOnItsChannel.Statement (.seqFirst k n frag src) :=
  channel_of_internal (fun _ => rfl) (fun _ _ => rfl) (by simp [tableChannel])

theorem EncodesOnItsChannel.seqLast (k : Reasm) (n : Byte) (frag : Bytes) (src : Packet) : EncodesOnItsChannel.Statement (.seqLast k n frag src) :=
  channel_of_internal (fun _ => rfl) (fun _ _ => rfl) (by simp [tableChannel])

theorem EncodesOnItsChannel.seqStandalone (k : Reasm) (n : Byte) (frag : Bytes) (src : Packet) : EncodesOnItsChannel.Statement (.seqStandalone k n frag src) :=
  channel_of_internal (fun _ => rfl) (fun _ _ => rfl) (by simp [tableChannel])

end Sys2Proof.Laws
end

