-- ==== Sys2Proof/Tests/Slice0.lean ====
section
/-! SUPPORT. The model's own tests: the well-formedness checks each refuse an ill-formed term, the words of `30_encoding.md`
decode to their operations, the vectors of `95_test_vectors.md` come out, each operation takes one step, and the hypotheses of
every obligation are met. Frames are written out from the layout table of R92, header bytes from byte 151 down; checksums are
those of the vectors, or computed by hand from R131. The configuration is CFG-T of `95_test_vectors.md` section 1. -/

set_option maxRecDepth 100000

namespace Sys2Proof.Tests

open Sys2Proof.Machine

/-- CFG-T. -/
def cfgT : Config := { bootConfig with
  serviceOfApid := [⟨0x13, .hk⟩, ⟨0x16, .mem⟩, ⟨0x19, .time⟩, ⟨0x45, .sched⟩, ⟨0x46, .fdir⟩]
  expectedApid := ⟨0x13, 0x16, 0x19, 0x45⟩
  codes := ⟨0xE1, 0xE2, 0xE3, 0xE4⟩
  tcAck := 9
  twoPhase := (List.range 128).map fun i => BitVec.ofNat 8 (128 + i)
  tickPeriod := 1 }

/-- CFG-T with a whitelist that admits one more pair for every service type. -/
def cfgWide : Config := { cfgT with
  subtypeWl := [⟨1, [3]⟩, ⟨3, [11]⟩, ⟨5, [0, 5]⟩, ⟨6, [7]⟩, ⟨9, [3]⟩, ⟨69, [5]⟩] }

/-- CFG-T with every field but the length elsewhere in the header bytes, three of them across two bytes, the checksum bytes
swapped, other time widths. -/
def cfgOdd : Config := { cfgT with
  layout := {
    version := ⟨151, 1⟩, pktType := ⟨151, 7⟩, secHdrFlag := ⟨151, 4⟩, apid := ⟨140, 5⟩, seqFlags := ⟨148, 2⟩,
    seqCount := ⟨149, 0⟩, ccsdsFlag := ⟨148, 4⟩, pktVersion := ⟨148, 5⟩, ack := ⟨147, 6⟩, serviceType := ⟨143, 0⟩,
    serviceSubType := ⟨144, 0⟩, srcDstId := ⟨145, 0⟩, subCounter := ⟨150, 0⟩, tswHigh := ⟨139, 0⟩, tswLow := ⟨141, 5⟩ }
  tsWidths := ⟨2, 3, 5, 6⟩
  cksHiIndex := 0 }

/-- CFG-T with two services, one of them not among the five names of the default, an address of two bytes and 12 bits, other
feeds, narrow local-time registers, and a broadcast on request only. -/
def cfgFew : Config := { cfgT with
  services := [.other 7, .mem]
  serviceOfApid := [⟨0x16, .mem⟩, ⟨0x77, .other 7⟩]
  memFields := ⟨0, [2, 1], 12⟩
  fragSlice := [1, 0]
  reasmFeed := [⟨6, 10, .schedReport⟩, ⟨69, 5, .memDump⟩, ⟨6, 7, .memDump⟩]
  ltWidths := ⟨4, 4, 4, 4⟩
  bcastPolicy := ⟨false, true⟩ }

/-- `cfgFew` with the widened whitelist. -/
def cfgFewWide : Config := { cfgFew with subtypeWl := cfgWide.subtypeWl }

/-- The reset state with a configuration. -/
def start (c : Config) : State := State.resetWith c

/-- The reset state with CFG-T. -/
def s0 : State := start cfgT

/-- A payload of zeros but for the listed bytes. -/
def payloadOf (l : List (Nat × Byte)) : Bytes := (List.range 137).map fun i => (l.lookup i).getD 0

/-- A frame: checksum `(F[1] << 8) | F[0]`, header bytes from 151 down to 139, payload bytes. -/
def frameW (ck : Word16) (hdr : List Byte) (pl : List (Nat × Byte)) : Bytes :=
  [loByte ck, hiByte ck] ++ payloadOf pl ++ hdr.reverse

/-- The telemetry header of R114's defaults, as bytes 151 to 139. -/
def tmHdr (apid svc sub : Byte) : List Byte := [0x28, apid, 0xC0, 0, 0, 0x97, 0x90, svc, sub, 0, 0, 0, 0]

/-- The packet of a frame with that header. -/
def pktT (apid svc sub : Byte) (ck : Word16) (pl : List (Nat × Byte)) : Packet where
  version := 1
  pktType := 0
  secHdrFlag := 1
  apid := apid
  seqFlags := 3
  seqCount := 0
  length := 151
  ccsdsFlag := 1
  pktVersion := 1
  ack := 0
  serviceType := svc
  serviceSubType := sub
  srcDstId := 0
  subCounter := 0
  ts := ⟨0, 0, 0, 0⟩
  payload := payloadOf pl
  recvChecksum := ck
  calcChecksum := ck

/-- A value of the next state, if there is one. -/
def onNext {α : Type} (r : Result) (f : State → α) : Option α :=
  match r with
  | .next t => some (f t)
  | .fault _ => none
  | .refused _ => none

/-- The refusal of an outcome, if it is one. -/
def refusal (r : Result) : Option Refusal :=
  match r with
  | .next _ => none
  | .fault _ => none
  | .refused e => some e

/-- The indices of the bytes of a list that are not zero, with the bytes. -/
def nonZero (E : Bytes) : List (Nat × Byte) :=
  ((List.range E.length).map fun i => (i, byteAt E i)).filter fun x => x.2 != 0

/-- The operation a request decodes to. -/
def decoded (c : Config) (w : Words) : Option Instr := (decode c w).toOption

/-! ### Well-formedness -/

/-- The header of the largest values, V24. -/
def maxHeader : Header where
  version := 7
  pktType := 1
  secHdrFlag := 1
  apid := 255
  seqFlags := 3
  seqCount := 255
  length := 255
  ccsdsFlag := 1
  pktVersion := 7
  ack := 15
  serviceType := 255
  serviceSubType := 255
  srcDstId := 255
  subCounter := 255
  ts := ⟨15, 15, 15, 15⟩

theorem test_wf_header_largest : maxHeader.wf cfgT = true := by decide

/-- One header for each field, with that field one above its largest value. -/
def badHeaders : List Header :=
  [{ maxHeader with version := 8 }, { maxHeader with pktType := 2 }, { maxHeader with secHdrFlag := 2 },
   { maxHeader with apid := 256 }, { maxHeader with seqFlags := 4 }, { maxHeader with seqCount := 256 },
   { maxHeader with length := 256 }, { maxHeader with ccsdsFlag := 2 }, { maxHeader with pktVersion := 8 },
   { maxHeader with ack := 16 }, { maxHeader with serviceType := 256 }, { maxHeader with serviceSubType := 256 },
   { maxHeader with srcDstId := 256 }, { maxHeader with subCounter := 256 }, { maxHeader with ts := ⟨16, 0, 0, 0⟩ },
   { maxHeader with ts := ⟨0, 16, 0, 0⟩ }, { maxHeader with ts := ⟨0, 0, 16, 0⟩ }, { maxHeader with ts := ⟨0, 0, 0, 16⟩ }]

theorem test_wf_header_refuses : badHeaders.all (fun h => !h.wf cfgT) = true := by decide

/-- The packet of V20. -/
def pkt25 : Packet := pktT 0x13 3 25 0x0C40 []

theorem test_wf_dispatch : (Instr.hk25 pkt25).wf cfgT = true := by decide

theorem test_wf_refuses_other_selector : (Instr.hk26 pkt25).wf cfgT = false := by decide

theorem test_wf_refuses_short_payload :
    (Instr.verify { pkt25 with payload := List.replicate 136 0 }).wf cfgT = false := by decide

theorem test_wf_refuses_wide_timestamp : (Instr.verify { pkt25 with ts := ⟨0, 16, 0, 0⟩ }).wf cfgT = false := by decide

theorem test_wf_refuses_foreign_checksum : (Instr.hk25 { pkt25 with calcChecksum := 0x0C41 }).wf cfgT = false := by decide

theorem test_wf_fragment :
    (Instr.seqFirst .memDump 0 (List.replicate 137 0) zeroPacket).wf cfgT = true ∧
    (Instr.seqFirst .memDump 0 (List.replicate 136 0) zeroPacket).wf cfgT = false ∧
    (Instr.seqLast .memDump 0 (List.replicate 137 0) { zeroPacket with payload := [] }).wf cfgT = false := by decide

theorem test_wf_config : cfgT.wf = true ∧ cfgWide.wf = true ∧ cfgOdd.wf = true ∧ cfgFewWide.wf = true := by decide

theorem test_wf_config_refuses_overlap :
    ({ cfgT with layout := { defaultLayout with ack := ⟨145, 1⟩ } } : Config).wf = false := by decide

/-- A layout that puts the sub-counter partly on byte 146, the byte of the length. -/
def layoutOnLength : Layout :=
  { defaultLayout with subCounter := ⟨145, 1⟩, pktVersion := ⟨141, 4⟩, ccsdsFlag := ⟨141, 7⟩, ack := ⟨141, 0⟩ }

theorem test_wf_config_refuses_a_field_on_the_length : ({ cfgT with layout := layoutOnLength } : Config).wf = false := by
  decide

theorem test_wf_config_refuses_place_outside_header :
    ({ cfgT with layout := { defaultLayout with apid := ⟨138, 0⟩ } } : Config).wf = false ∧
    ({ cfgT with layout := { defaultLayout with apid := ⟨152, 0⟩ } } : Config).wf = false ∧
    ({ cfgT with layout := { defaultLayout with version := ⟨151, 6⟩ } } : Config).wf = false := by decide

theorem test_wf_config_refuses_time_widths : ({ cfgT with tsWidths := ⟨4, 4, 4, 5⟩ } : Config).wf = false := by decide

theorem test_wf_config_refuses_double_service :
    ({ cfgT with services := [.hk, .mem, .hk, .time, .sched, .fdir] } : Config).wf = false := by decide

theorem test_wf_config_refuses_stranger :
    ({ cfgT with services := [.hk, .mem, .time, .sched] } : Config).wf = false := by decide

theorem test_wf_config_refuses_missing_whitelist_row :
    ({ cfgT with subtypeWl := defaultWhitelist.drop 1 } : Config).wf = false := by decide

/-! ### Decoding: one written-out word for every operation -/

theorem test_decode_tcvAccOk :
    decoded cfgT (.frame152 (frameW 0x513D [0x28, 0x2A, 0xC0, 0x00, 0x00, 0x97, 0x90, 0x01, 0x01, 0x00, 0x00, 0x00, 0x00] [])) =
      some (.tcvAccOk (pktT 0x2A 1 1 0x513D [])) := by decide

theorem test_decode_tcvAccFail :
    decoded cfgT (.frame152 (frameW 0x5A3E [0x28, 0x2A, 0xC0, 0x00, 0x00, 0x97, 0x90, 0x01, 0x02, 0x00, 0x00, 0x00, 0x00] [])) =
      some (.tcvAccFail (pktT 0x2A 1 2 0x5A3E [])) := by decide

theorem test_decode_tcvExeOk :
    decoded cfgT (.frame152 (frameW 0x8743 [0x28, 0x2A, 0xC0, 0x00, 0x00, 0x97, 0x90, 0x01, 0x07, 0x00, 0x00, 0x00, 0x00] [])) =
      some (.tcvExeOk (pktT 0x2A 1 7 0x8743 [])) := by decide

theorem test_decode_tcvExeFail :
    decoded cfgT (.frame152 (frameW 0x9044 [0x28, 0x2A, 0xC0, 0x00, 0x00, 0x97, 0x90, 0x01, 0x08, 0x00, 0x00, 0x00, 0x00] [])) =
      some (.tcvExeFail (pktT 0x2A 1 8 0x9044 [])) := by decide

theorem test_decode_hk10 :
    decoded cfgT (.frame152 (frameW 0x8431 [0x28, 0x13, 0xC0, 0x00, 0x00, 0x97, 0x90, 0x03, 0x0A, 0x00, 0x00, 0x00, 0x00] [])) =
      some (.hk10 (pktT 0x13 3 10 0x8431 [])) := by decide

theorem test_decode_hk12 :
    decoded cfgT (.frame152 (frameW 0x9633 [0x28, 0x13, 0xC0, 0x00, 0x00, 0x97, 0x90, 0x03, 0x0C, 0x00, 0x00, 0x00, 0x00] [])) =
      some (.hk12 (pktT 0x13 3 12 0x9633 [])) := by decide

theorem test_decode_hk25 :
    decoded cfgT (.frame152 (frameW 0x0C40 [0x28, 0x13, 0xC0, 0x00, 0x00, 0x97, 0x90, 0x03, 0x19, 0x00, 0x00, 0x00, 0x00] [])) =
      some (.hk25 (pktT 0x13 3 25 0x0C40 [])) := by decide

theorem test_decode_hk26 :
    decoded cfgT (.frame152 (frameW 0x1541 [0x28, 0x13, 0xC0, 0x00, 0x00, 0x97, 0x90, 0x03, 0x1A, 0x00, 0x00, 0x00, 0x00] [])) =
      some (.hk26 (pktT 0x13 3 26 0x1541 [])) := by decide

theorem test_decode_evt1 :
    decoded cfgT (.frame152 (frameW 0x5F38 [0x28, 0x21, 0xC0, 0x00, 0x00, 0x97, 0x90, 0x05, 0x01, 0x00, 0x00, 0x00, 0x00] [])) =
      some (.evt1 (pktT 0x21 5 1 0x5F38 [])) := by decide

theorem test_decode_evt2 :
    decoded cfgT (.frame152 (frameW 0x6839 [0x28, 0x21, 0xC0, 0x00, 0x00, 0x97, 0x90, 0x05, 0x02, 0x00, 0x00, 0x00, 0x00] [])) =
      some (.evt2 (pktT 0x21 5 2 0x6839 [])) := by decide

theorem test_decode_evt3 :
    decoded cfgT (.frame152 (frameW 0x713A [0x28, 0x21, 0xC0, 0x00, 0x00, 0x97, 0x90, 0x05, 0x03, 0x00, 0x00, 0x00, 0x00] [])) =
      some (.evt3 (pktT 0x21 5 3 0x713A [])) := by decide

theorem test_decode_evt4 :
    decoded cfgT (.frame152 (frameW 0x7A3B [0x28, 0x21, 0xC0, 0x00, 0x00, 0x97, 0x90, 0x05, 0x04, 0x00, 0x00, 0x00, 0x00] [])) =
      some (.evt4 (pktT 0x21 5 4 0x7A3B [])) := by decide

theorem test_decode_mem6 :
    decoded cfgT (.frame152 (frameW 0x7E33 [0x28, 0x16, 0xC0, 0x00, 0x00, 0x97, 0x90, 0x06, 0x06, 0x00, 0x00, 0x00, 0x00] [])) =
      some (.mem6 (pktT 0x16 6 6 0x7E33 [])) := by decide

theorem test_decode_mem10 :
    decoded cfgT (.frame152 (frameW 0xA237 [0x28, 0x16, 0xC0, 0x00, 0x00, 0x97, 0x90, 0x06, 0x0A, 0x00, 0x00, 0x00, 0x00] [])) =
      some (.mem10 (pktT 0x16 6 10 0xA237 [])) := by decide

theorem test_decode_time2 :
    decoded cfgT (.frame152 (frameW 0x7835 [0x28, 0x19, 0xC0, 0x00, 0x00, 0x97, 0x90, 0x09, 0x02, 0x00, 0x00, 0x00, 0x00] [])) =
      some (.time2 (pktT 0x19 9 2 0x7835 [])) := by decide

theorem test_decode_sched4 :
    decoded cfgT (.frame152 (frameW 0xC49F [0x28, 0x45, 0xC0, 0x00, 0x00, 0x97, 0x90, 0x45, 0x04, 0x00, 0x00, 0x00, 0x00] [])) =
      some (.sched4 (pktT 0x45 69 4 0xC49F [])) := by decide

theorem test_decode_fdirFwd :
    decoded cfgT (.frame152 (frameW 0xAA9D [0x28, 0x46, 0xC0, 0x00, 0x00, 0x97, 0x90, 0x46, 0xFF, 0x00, 0x00, 0x00, 0x00] [])) =
      some (.fdirFwd (pktT 0x46 70 255 0xAA9D [])) := by decide

theorem test_decode_fletcher16 :
    decoded cfgT (.port 0x01 [.bytes [1, 2, 3], .num 1, .num 2]) = some (.fletcher16 [1, 2, 3] 1 2) := by decide

theorem test_decode_encode :
    decoded cfgT (.port 0x02 [.header maxHeader, .bytes [7]]) = some (.encode maxHeader [7]) := by decide

theorem test_decode_decode : decoded cfgT (.port 0x03 [.bytes [1, 2, 3]]) = some (.decode [1, 2, 3]) := by decide

theorem test_decode_verify : decoded cfgT (.port 0x04 [.packet pkt25]) = some (.verify pkt25) := by decide

theorem test_decode_rx : decoded cfgT (.port 0x10 [.bytes [1, 2, 3]]) = some (.rx [1, 2, 3]) := by decide

theorem test_decode_tc :
    decoded cfgT (.port 0x11 [.num 0x16, .num 0x2A, .num 6, .num 2, .num 5, .num 1, .bytes [0xDE, 0xAD, 0xBE]]) =
      some (.tc 0x16 0x2A 6 2 5 1 [0xDE, 0xAD, 0xBE]) := by decide

theorem test_decode_ltSet :
    decoded cfgT (.port 0x12 [.num 3, .num 4, .num 5, .num 6]) = some (.ltSet 3 4 5 6) := by decide

theorem test_decode_bcast : decoded cfgT (.port 0x13 []) = some .bcast := by decide

theorem test_decode_await :
    decoded cfgT (.port 0x20 [.service .mem, .num 5, .num 0x82]) = some (.await .mem 5 0x82) := by decide

theorem test_decode_tick : decoded cfgT (.port 0x21 []) = some .tick := by decide

/-- The plain fragment of the sequence tests: 137 bytes. -/
def frag (b : Byte) : Bytes := List.replicate 137 b

theorem test_decode_seqCont :
    decoded cfgT (.seq2 0b00 [.reasm .memDump, .num 11, .bytes (frag 1), .packet pkt25]) =
      some (.seqCont .memDump 11 (frag 1) pkt25) := by decide

theorem test_decode_seqFirst :
    decoded cfgT (.seq2 0b01 [.reasm .memDump, .num 10, .bytes (frag 1), .packet pkt25]) =
      some (.seqFirst .memDump 10 (frag 1) pkt25) := by decide

theorem test_decode_seqLast :
    decoded cfgT (.seq2 0b10 [.reasm .schedReport, .num 13, .bytes (frag 1), .packet pkt25]) =
      some (.seqLast .schedReport 13 (frag 1) pkt25) := by decide

theorem test_decode_seqStandalone :
    decoded cfgT (.seq2 0b11 [.reasm .schedReport, .num 255, .bytes (frag 1), .packet pkt25]) =
      some (.seqStandalone .schedReport 255 (frag 1) pkt25) := by decide

theorem test_decode_refuses :
    decode cfgT (.frame152 (List.replicate 151 0)) = .error (.frameLength 151) ∧
    decode cfgT (.frame152 (frameW 0 (tmHdr 0x13 3 11) [])) = .error (.unknownSelector 0x030B) ∧
    decode cfgT (.port 0x05 []) = .error (.unknownPort 0x05) ∧
    decode cfgT (.port 0x13 [.num 1]) = .error (.badOperands 0x13) ∧
    decode cfgT (.port 0x20 [.service .mem, .num 5, .num 256]) = .error (.badOperands 0x20) ∧
    decode cfgT (.port 0x04 [.packet { pkt25 with payload := [] }]) = .error .badPacket := ⟨rfl, rfl, rfl, rfl, rfl, rfl⟩

/-- Words of the opcode table, and words that are none. -/
theorem test_table_words :
    (decodeTableWord 8 0x01).isSome = true ∧ (decodeTableWord 8 0x04).isSome = true ∧
    (decodeTableWord 8 0x11).isSome = true ∧ (decodeTableWord 8 0x00).isSome = true ∧
    (decodeTableWord 16 0x0101).isSome = true ∧ (decodeTableWord 16 0x46FF).isSome = true ∧
    decodeTableWord 16 0x0403 = none ∧ decodeTableWord 24 0x0101 = none ∧
    (decodeTableWord 2 0b01).isSome = true ∧ (decodeTableWord 2 0b11).isSome = true := by decide

/-! ### The codec vectors -/

theorem test_v1_v12 :
    onNext (exec (.fletcher16 [1, 2, 3, 4] 0 4) s0) State.returned = some [.checksum 0x140A] ∧
    onNext (exec (.fletcher16 [9, 1, 2, 3, 4, 9] 1 4) s0) State.returned = some [.checksum 0x140A] := by decide

theorem test_v5_v8_v18 :
    fletcher16 [0xFE] 0 1 = 0xFEFE ∧ fletcher16 [0x61, 0x62, 0x63, 0x64, 0x65] 0 5 = 0xC8F0 ∧
    refusal (exec (.fletcher16 [1, 2, 3, 4] 2 3) s0) = some .rangeOutsideData := by decide

theorem test_v24 :
    onNext (exec (.encode maxHeader (List.replicate 137 0)) s0) State.returned =
      some [.frame (frameW 0x3BB9 [0xF8, 0xFF, 0xC0, 0xFF, 0, 0xFF, 0xFF, 0xFF, 0xFF, 0xFF, 0xFF, 0xFF, 0xFF] [])] := by
  decide

/-- V25: fields too wide for their place are reduced. -/
theorem test_v25 :
    onNext (exec (.encode { pkt25.header with version := 9, apid := 0x113, seqFlags := 5, ack := 0x1F, ts := ⟨20, 13, 59, 30⟩ }
        (List.replicate 137 0)) s0) State.returned =
      some [.frame (frameW 0x43DA [0x28, 0x13, 0x40, 0, 0, 0x97, 0x9F, 3, 0x19, 0, 0, 0x4D, 0xBE] [])] := by decide

theorem test_v23 :
    onNext (exec (.decode (frameW 0xF77B [0x28, 0x19, 0xC0, 0, 0, 0x97, 0x90, 9, 2, 0, 0, 0x12, 0x34] [])) s0) State.pkt =
      some { pktT 0x19 9 2 0xF77B [] with ts := ⟨1, 2, 3, 4⟩ } := by decide

/-- V26: the pad bits are summed and otherwise ignored. -/
theorem test_v26 :
    onNext (exec (.decode (frameW 0x0C40 [0x2F, 0x13, 0xFF, 0, 0xAA, 0x97, 0x90, 3, 0x19, 0, 0, 0, 0] [])) s0) State.pkt =
      some { pkt25 with calcChecksum := 0x2631 } := by decide

theorem test_v27 :
    onNext (exec (.decode (List.replicate 153 0)) s0) (fun t => (t.returned, t.pkt)) =
      some ([.frameLengthError 153], zeroPacket) := by decide

theorem test_v28 : refusal (exec (.encode maxHeader (List.replicate 138 0)) s0) = some .payloadNot137 := by decide

/-- A round trip under another layout. -/
theorem test_odd_layout :
    (decodeFrame cfgOdd (encodeFrame cfgOdd { maxHeader with version := 5, ack := 6, ts := ⟨2, 5, 19, 44⟩ } (frag 3))).map
        (fun p => (p.header, p.payload, p.recvChecksum == p.calcChecksum)) =
      some ({ maxHeader with version := 5, ack := 6, ts := ⟨2, 5, 19, 44⟩ }, frag 3, true) := by decide

/-- A field that goes on in the next byte has its low bits in the first: 0xA5 from bit 5 of byte 140 on. -/
theorem test_straddling_field :
    byteAt (encodeFrame cfgOdd { zeroHeader with apid := 0xA5 } (frag 0)) 140 = 0xA0 ∧
    byteAt (encodeFrame cfgOdd { zeroHeader with apid := 0xA5 } (frag 0)) 141 = 0x14 ∧
    byteAt (encodeFrame cfgOdd { zeroHeader with length := 151 } (frag 0)) 146 = 0x97 := by decide

/-- R157 with other memory fields: the address 0xF12 out of the bytes 0xAF and 0x12, reduced to 12 bits. -/
theorem test_mem_addr_of_another_width :
    memAddr cfgFew (pktT 0x16 6 10 0 [(2, 0xAF), (1, 0x12)]) = 0xF12 ∧
    memAddr cfgT (pktT 0x16 6 10 0 [(135, 1), (134, 2), (133, 3), (132, 4)]) = 0x01020304 := by decide

/-- R16 on two of the spaces: the envelope of a step, and the payload; a range that leaves the space is no access. -/
theorem test_mem_write_and_read :
    ((memWrite ⟨s0, List.replicate 147 0⟩ .env 145 [7, 25]).map fun m => (memRead m .env 144 3, readByte m .env 146)) =
      some (some [0, 7, 25], some 25) ∧
    (memWrite ⟨s0, List.replicate 147 0⟩ .env 146 [7, 25]).isNone = true ∧
    ((memWrite s0.spaces .payload 136 [9]).map fun m => memRead m .payload 135 2) = some (some [0, 9]) := by decide

/-! ### The verifier vectors -/

/-- What `VERIFY` says of a frame. -/
def verdictOf (F : Bytes) : Option Verdict := (decodeFrame cfgT F).map (verifyPacket cfgT)

theorem test_v30_v52 :
    verdictOf (frameW 0x0C40 (tmHdr 0x13 3 25) []) = some .ok ∧
    verdictOf (frameW 0x6CDF [0x30, 0x13, 0, 0xC8, 0, 0x97, 0x9F, 3, 0x19, 0x77, 9, 0xFF, 0xFF] []) = some .ok := by decide

theorem test_v31_v33 :
    verdictOf (frameW 0x063F [0x28, 0x13, 0xC0, 0, 0, 0x96, 0x90, 3, 0x19, 0, 0, 0, 0] []) =
      some (.reject .lengthMismatch) ∧
    verdictOf (frameW 0x1517 [0x08, 0x13, 0xC0, 0, 0, 0, 0x90, 0x46, 0x63, 0, 0, 0, 0] []) =
      some (.reject .lengthMismatch) := by decide

theorem test_v34_v35 :
    verdictOf (frameW 0x0C41 (tmHdr 0x13 3 25) []) = some (.reject .checksumMismatch) ∧
    verdictOf (frameW 0xFF40 (tmHdr 0x13 3 25) []) = some (.reject .checksumMismatch) := by decide

theorem test_v36_v37 :
    verdictOf (frameW 0xB39E (tmHdr 0x46 70 1) []) = some (.reject .unknownServiceType) ∧
    verdictOf (frameW 0xEB11 (tmHdr 0 0 0) []) = some (.reject .unknownServiceType) := by decide

theorem test_v38_v39 :
    verdictOf (frameW 0x8D32 (tmHdr 0x13 3 11) []) = some (.reject .unknownSubType) ∧
    verdictOf (frameW 0x411B (tmHdr 0 5 5) []) = some (.reject .unknownSubType) := by decide

theorem test_v40_v42 :
    verdictOf (frameW 0x0E41 (tmHdr 0x14 3 25) []) = some (.reject .invalidApid) ∧
    verdictOf (frameW 0x7830 (tmHdr 0x13 6 6) []) = some (.reject .invalidApid) ∧
    verdictOf (frameW 0xE303 (tmHdr 0xEE 1 2) []) = some .ok := by decide

theorem test_v43_v44 :
    verdictOf (frameW 0x9A35 (tmHdr 0x16 6 6) [(136, 2)]) = some (.reject .invalidMemoryAddress) ∧
    verdictOf (frameW 0xB148 (tmHdr 0x16 6 10) [(136, 1), (134, 0x10)]) = some (.reject .invalidMemoryAddress) := by decide

theorem test_v45_v47 :
    verdictOf (frameW 0xEB20 [0x08, 0x13, 0xC0, 0, 0, 0x97, 0x90, 3, 0x19, 0, 0, 0, 0] []) = some (.reject .versionMismatch) ∧
    verdictOf (frameW 0x88BF [0x28, 0x13, 0xC0, 0, 0, 0x97, 0x10, 3, 0x19, 0, 0, 0, 0] []) = some (.reject .versionMismatch) ∧
    verdictOf (frameW 0x7C50 [0x28, 0x13, 0xC0, 0, 0, 0x97, 0xA0, 3, 0x19, 0, 0, 0, 0] []) =
      some (.reject .versionMismatch) := by decide

theorem test_v48_v49 :
    verdictOf (frameW 0x7D43 (tmHdr 0x16 6 6) [(136, 1), (134, 0x0F), (133, 0xFF), (132, 0xFF)]) = some .ok ∧
    verdictOf (frameW 0x7E33 (tmHdr 0x16 6 6) [(135, 0xFF), (134, 0xFF), (133, 0xFF), (132, 0xFF)]) = some .ok := by decide

theorem test_v50_v51 :
    verdictOf (frameW 0xEB21 [0x08, 0x13, 0xC0, 0, 0, 0x97, 0x90, 3, 0x19, 0, 0, 0, 0] []) =
      some (.reject .checksumMismatch) ∧
    verdictOf (frameW 0x6F13 [0x08, 0x14, 0xC0, 0, 0, 0x97, 0x90, 3, 0x0B, 0, 0, 0, 0] []) =
      some (.reject .unknownSubType) := by decide

theorem test_verify_returns :
    onNext (exec (.verify { pkt25 with length := 255 }) s0) State.returned = some [.verdict (.reject .lengthMismatch)] := by
  decide

/-! ### The router vectors -/

/-- The payload of a report about the command with packet id 0x3816 and PSC 0xC001 (V59). -/
def reportPayload : List (Nat × Byte) := [(136, 0x38), (135, 0x16), (134, 0xC0), (133, 0x01)]

/-- The acceptance report of program P2. -/
def accF : Bytes := frameW 0xCC4D (tmHdr 0x2A 1 1) reportPayload

/-- The completion report of program P2. -/
def exeF : Bytes := frameW 0x0353 (tmHdr 0x2A 1 7) reportPayload

/-- Program P1: a housekeeping report reaches the HK consumer. -/
theorem test_p1 :
    onNext (exec (.rx (frameW 0x0C40 (tmHdr 0x13 3 25) [])) s0)
        (fun t => (t.out.archive.length, t.out.log, t.out.fwd.hk.map nonZero)) =
      some (1, [.verifyOk], [[(142, 0xC0), (143, 0x13), (144, 0x28), (146, 0x19)]]) := by decide

/-- V67, and V34 in program P7: what is dropped. -/
theorem test_v67_p7 :
    onNext (exec (.rx [1, 2, 3]) s0) (fun t => (t.out.archive, t.out.log, t.frame)) =
      some ([[1, 2, 3]], [.error .frameLengthError], s0.frame) ∧
    onNext (exec (.rx (frameW 0x0C41 (tmHdr 0x13 3 25) [])) s0) (fun t => (t.out.log, t.out.fwd == s0.out.fwd)) =
      some ([.error .checksumMismatch], true) := by decide

/-- V59: an acceptance report with no cell waiting. -/
theorem test_v59 :
    onNext (exec (.rx accF) s0) (fun t => (t.tcv.get .mem, t.out.log)) =
      some (⟨true, false, 0x3816, 0xC001⟩, [.verifyOk]) := by decide

theorem test_tcvAccOk_unknown_destination :
    onNext (exec (.tcvAccOk (pktT 0x2A 1 1 0 [(135, 0x77)])) s0) (fun t => (t.tcv == s0.tcv, t.out.log)) =
      some (true, [.error .unknownVerifyDestination]) := by decide

theorem test_tcvExeOk :
    onNext (exec (.tcvExeOk (pktT 0x2A 1 7 0 reportPayload)) s0) (fun t => t.tcv.get .mem) =
      some ⟨true, true, 0x3816, 0xC001⟩ := by decide

/-- A state in which the memory service waits for a two-phase operation. -/
def waiting : State := { s0 with gate := s0.gate.set .mem ⟨true, 9, 0, 0x80, true⟩ }

/-- V94: a completion report alone ends a two-phase wait; an acceptance report alone does not. -/
theorem test_v93_v94 :
    onNext (exec (.tcvExeOk (pktT 0x2A 1 7 0 reportPayload)) waiting)
        (fun t => (t.tcv.get .mem, (t.gate.get .mem).waiting, t.out.result.get .mem, t.out.log)) =
      some (⟨false, false, 0x3816, 0xC001⟩, false, [.ok], [.verifySuccess 0x80]) ∧
    onNext (exec (.tcvAccOk (pktT 0x2A 1 1 0 reportPayload)) waiting) (fun t => (t.tcv.get .mem, (t.gate.get .mem).waiting)) =
      some (⟨true, false, 0x3816, 0xC001⟩, true) := by decide

/-- V57. -/
theorem test_v57 :
    onNext (exec (.tcvAccFail (pktT 0x2A 1 2 0 reportPayload)) s0) (fun t => (t.out.log, t.out.fwd.fdir.map nonZero)) =
      some ([.tcVerifyFailure 2], [[(133, 0x01), (134, 0xC0), (135, 0x16), (136, 0x38), (142, 0xC0), (143, 0x2A),
        (144, 0x28), (145, 2), (146, 0xE3)]]) := by decide

/-- V58. -/
theorem test_v58 :
    onNext (exec (.tcvExeFail (pktT 0x2A 1 8 0 [])) s0) (fun t => (t.out.log, t.out.fwd.fdir.map nonZero)) =
      some ([.tcVerifyFailure 8], [[(142, 0xC0), (143, 0x2A), (144, 0x28), (145, 8), (146, 0xE3)]]) := by decide

/-- V65. -/
theorem test_v65 :
    [Instr.hk10 (pktT 0x13 3 10 0 []), .hk12 (pktT 0x13 3 12 0 []), .hk26 (pktT 0x13 3 26 0 [])].map
        (fun i => onNext (exec i s0) fun t => t.out.fwd.hk.map fun E => byteAt E 146) =
      [some [0x0A], some [0x0C], some [0x1A]] := by decide

/-- V61. -/
theorem test_v61 :
    onNext (exec (.evt1 (pktT 0 5 1 0 [(0, 0x5A)])) s0) (fun t => (t.out.log, t.out.fwd == s0.out.fwd)) =
      some ([.eventReport (pktT 0 5 1 0 [(0, 0x5A)])], true) := by decide

/-- V62: the event alerts differ only in the auxiliary byte. -/
theorem test_v62 :
    [Instr.evt2 (pktT 0x21 5 2 0 []), .evt3 (pktT 0x21 5 3 0 []), .evt4 (pktT 0x21 5 4 0 [])].map
        (fun i => onNext (exec i s0) fun t => t.out.fwd.fdir.map nonZero) =
      [some [[(142, 0xC0), (143, 0x21), (144, 0x28), (145, 2), (146, 0xE4)]],
       some [[(142, 0xC0), (143, 0x21), (144, 0x28), (145, 3), (146, 0xE4)]],
       some [[(142, 0xC0), (143, 0x21), (144, 0x28), (145, 4), (146, 0xE4)]]] := by decide

/-- V56: the envelope of a memory packet. -/
theorem test_v56 :
    onNext (exec (.mem6 { pktT 0x16 6 6 0 [(136, 1), (134, 1), (133, 0x23), (132, 0x45), (0, 0xAB)] with
        seqFlags := 1, seqCount := 10 }) s0) (fun t => (t.out.fwd.mem.map nonZero, t.rs.memDump.phase, t.rs.memDump.sequenceOffset)) =
      some ([[(0, 0xAB), (132, 0x45), (133, 0x23), (134, 1), (136, 1), (139, 0x0A), (140, 1), (141, 0x0A), (142, 0x40),
        (143, 0x16), (144, 0x28), (145, 1), (146, 6)]], .collecting, 10) := by decide

/-- V63. -/
theorem test_v63 :
    onNext (exec (.mem10 { pktT 0x16 6 10 0 [(136, 1)] with seqFlags := 0, seqCount := 7 }) s0)
        (fun t => (t.out.fwd.mem.map nonZero, t.rs == s0.rs, t.out.fwd.fdir)) =
      some ([[(136, 1), (139, 7), (141, 7), (143, 0x16), (144, 0x28), (145, 1), (146, 0x0A)]], true, []) := by decide

/-- V64. -/
theorem test_v64 :
    onNext (exec (.sched4 (pktT 0x45 69 4 0 [(0, 0x11), (136, 0x99)])) s0)
        (fun t => (t.out.fwd.sched.map nonZero, t.out.sink.schedReport, t.rs == s0.rs)) =
      some ([[(0, 0x11), (136, 0x99), (142, 0xC0), (143, 0x45), (144, 0x28), (146, 4)]],
        [payloadOf [(0, 0x11), (136, 0x99)]], true) := by decide

/-- V66: 91 minutes ahead is adopted, 90 is not. -/
theorem test_v66 :
    onNext (exec (.time2 { pktT 0x19 9 2 0 [] with ts := ⟨1, 4, 15, 9⟩ }) { s0 with lt := ⟨1, 2, 44, 0⟩ })
        (fun t => t.lt == ⟨1, 4, 15, 9⟩ && t.prevLt == ⟨1, 2, 44, 0⟩ && t.prevValid &&
          t.out.fwd.fdir.map (byteAt · 146) == [0xE1] && t.out.bcast.get .sched == [⟨1, 4, 15, 9⟩]) = some true ∧
    onNext (exec (.time2 { pktT 0x19 9 2 0 [] with ts := ⟨1, 4, 15, 9⟩ }) { s0 with lt := ⟨1, 2, 45, 0⟩ })
        (fun t => t.lt == ⟨1, 2, 45, 0⟩ && !t.prevValid && t.out == s0.out) = some true := by decide

/-- V66: backwards, 91 minutes are adopted and 90 are not. -/
theorem test_v66_backwards :
    onNext (exec (.time2 { pktT 0x19 9 2 0 [] with ts := ⟨1, 1, 15, 9⟩ }) { s0 with lt := ⟨1, 2, 46, 0⟩ }) State.lt =
      some ⟨1, 1, 15, 9⟩ ∧
    onNext (exec (.time2 { pktT 0x19 9 2 0 [] with ts := ⟨1, 1, 15, 9⟩ }) { s0 with lt := ⟨1, 2, 45, 0⟩ }) State.lt =
      some ⟨1, 2, 45, 0⟩ := by decide

theorem test_fdirFwd :
    onNext (exec (.fdirFwd (pktT 0x46 70 99 0 [])) s0) (fun t => t.out.fwd.fdir.map nonZero) =
      some [[(142, 0xC0), (143, 0x46), (144, 0x28), (146, 99)]] := by decide

/-! ### The packetizer and the local time -/

/-- V110. -/
theorem test_v110 :
    onNext (exec (.tc 0x16 0x2A 6 2 5 1 [0xDE, 0xAD, 0xBE]) s0) (fun t => t.out.linkTx) =
      some [frameW 0x7DC3 [0x38, 0x16, 0xC0, 1, 0, 0x97, 0x99, 6, 2, 0x2A, 5, 0, 0] [(0, 0xDE), (1, 0xAD), (2, 0xBE)]] := by
  decide

/-- V113: the header bytes 149, 148 and the checksums of a first and a last frame. -/
theorem test_v113 :
    onNext (exec (.tc 0x16 0x2A 6 2 0 2 (List.replicate 138 1)) s0)
        (fun t => t.out.linkTx.map fun F => (byteAt F 149, byteAt F 148, byteAt F 1, byteAt F 0)) =
      some [(0x40, 1, 0xDF, 0x7C), (0x80, 2, 0x2D, 0x35)] := by decide

/-- V115 to V117. -/
theorem test_v115_v117 :
    refusal (exec (.tc 0x16 0x2A 6 2 0 1 (List.replicate 138 1)) s0) = some .tcNotAdmitted ∧
    refusal (exec (.tc 0x16 0x2A 6 2 0 2 (List.replicate 137 1)) s0) = some .tcNotAdmitted ∧
    refusal (exec (.tc 0x16 0x2A 6 2 0 0 []) s0) = some .tcNotAdmitted := by decide

/-- V118: the stamp is the local time reduced to 4-bit fields. -/
theorem test_v118 :
    onNext (exec (.tc 0x16 0x2A 6 2 0 1 []) { s0 with lt := ⟨20, 13, 59, 30⟩ })
        (fun t => t.out.linkTx.map fun F => (byteAt F 140, byteAt F 139, byteAt F 1, byteAt F 0)) =
      some [(0x4D, 0xBE, 0xA2, 0x7F)] := by decide

/-- V120, and components reduced to the widths of the registers. -/
theorem test_v120 :
    onNext (exec (.ltSet 3 4 5 6) s0) (fun t => (t.lt, t.prevValid, t.out.bcast.get .time)) =
      some (⟨3, 4, 5, 6⟩, false, [⟨3, 4, 5, 6⟩]) ∧
    onNext (exec (.ltSet 65536 256 257 255) s0) State.lt = some ⟨0, 0, 1, 255⟩ := by decide

/-- V121. -/
theorem test_v121 :
    onNext (exec .bcast { s0 with lt := ⟨3, 4, 5, 6⟩ }) (fun t => (t.out.bcast.get .fdir, t.out.bcast.get .hk, t.lt)) =
      some ([⟨3, 4, 5, 6⟩], [⟨3, 4, 5, 6⟩], ⟨3, 4, 5, 6⟩) := by decide

/-! ### The reassembler -/

/-- A session after `FIRST(10)`. -/
def collecting : State := { s0 with rs := { s0.rs with memDump := ⟨.collecting, 10, 10, 0, [1]⟩ } }

theorem test_seqFirst :
    onNext (exec (.seqFirst .memDump 10 [1] pkt25) s0) (fun t => t.rs) = some collecting.rs := by decide

/-- V71. -/
theorem test_v71 :
    onNext (exec (.seqFirst .memDump 11 [2] pkt25) collecting) (fun t => (t.rs == s0.rs, t.out.sink.memDump,
        t.out.fwd.fdir.map fun E => (byteAt E 146, byteAt E 145))) = some (true, [], [(0xE2, 0)]) := by decide

/-- V74 and V79. -/
theorem test_v74_v79 :
    onNext (exec (.seqStandalone .schedReport 0 [7] pkt25) s0) (fun t => (t.out.sink.schedReport, t.rs == s0.rs)) =
      some ([[7]], true) ∧
    onNext (exec (.seqStandalone .memDump 11 [7] pkt25) collecting) (fun t => (t.out.sink.memDump, t.rs == s0.rs)) =
      some ([], true) := by decide

/-- V76 and V82: an equal count is no increase. -/
theorem test_v76_v82 :
    onNext (exec (.seqCont .memDump 10 [2] pkt25) collecting) (fun t => (t.rs == s0.rs, t.out.fwd.fdir.length)) =
      some (true, 1) ∧
    onNext (exec (.seqCont .memDump 11 [2] pkt25) collecting) (fun t => t.rs.memDump) =
      some ⟨.collecting, 11, 10, 0, [1, 2]⟩ := by decide

/-- V75 and V73: gaps are not detected; a `LAST` from `Idle` is a violation. -/
theorem test_v75_v73 :
    onNext (exec (.seqLast .memDump 200 [2] pkt25) collecting) (fun t => (t.out.sink.memDump, t.rs == s0.rs)) =
      some ([[1, 2]], true) ∧
    onNext (exec (.seqLast .schedReport 5 [2] pkt25) collecting)
        (fun t => (t.out.sink.schedReport, t.rs == collecting.rs, t.out.fwd.fdir.map (byteAt · 145))) =
      some ([], true, [1]) := by decide

/-! ### The gate -/

/-- V91 and V92: with timeout 0 success is tested first. -/
theorem test_v91_v92 :
    onNext (exec (.await .mem 0 0x10) s0) (fun t => t.out.result.get .mem == [.fail] && t.out.log == [.verificationTimeout 0x10] &&
        t.out.fwd.fdir.map nonZero == [[(146, 0x10)]]) = some true ∧
    onNext (exec (.await .mem 0 0x10) { s0 with tcv := s0.tcv.set .mem ⟨true, true, 1, 2⟩ })
        (fun t => t.out.result.get .mem == [.ok] && t.tcv.get .mem == ⟨false, false, 1, 2⟩ && !(t.gate.get .mem).waiting) = some true := by decide

/-- V96 and V103: the second `AWAIT` is refused; the largest timeout is accepted. -/
theorem test_v96_v103 :
    refusal (exec (.await .mem 7 0x11) waiting) = some .awaitWhileWaiting ∧
    onNext (exec (.await .hk 4294967295 0x80) s0) (fun t => t.gate.get .hk) = some ⟨true, 4294967295, 0, 0x80, true⟩ ∧
    refusal (exec (.await .hk 4294967296 0x80) s0) = some .timeoutTooWide := by decide

/-- V97: two cells time out on one `TICK`, HK first. -/
theorem test_v97 :
    onNext (exec .tick (setGate .fdir ⟨true, 3, 1, 0x22, false⟩ (setGate .hk ⟨true, 2, 1, 0x21, false⟩
        (setGate .mem ⟨true, 2, 1, 0x20, false⟩ s0))))
        (fun t => t.out.log == [.verificationTimeout 0x21, .verificationTimeout 0x20] &&
          t.out.fwd.fdir.map nonZero == [[(146, 0x21)], [(146, 0x20)]] && t.out.result.get .mem == [.fail] &&
          t.gate.get .mem == ⟨false, 2, 2, 0x20, false⟩ && t.gate.get .fdir == ⟨true, 3, 2, 0x22, false⟩) = some true := by decide

/-- V101. -/
theorem test_v101 : exec .tick s0 = .next s0 := rfl

/-! ### Steps -/

/-- A state in which one event is about to happen. -/
def before (e : InputEvent) : State := { s0 with inbox := [e] }

/-- The state after the host has loaded a configuration, in which one event is about to happen. -/
def loaded (c : Config) (e : InputEvent) : State := { installConfig c State.reset with inbox := [e] }

theorem test_step_request :
    onNext (step (before (.request ⟨.host, .port 0x12 [.num 3, .num 4, .num 5, .num 6]⟩)))
        (fun t => (t.lt, t.booted, t.inbox.length)) = some (⟨3, 4, 5, 6⟩, true, 0) := by decide

/-- R279: the time base issues no `BCAST`, the host no `TICK`, one service no `AWAIT` for another, and what is no member of
`SERVICES` no `TC`. -/
theorem test_step_wrong_agent :
    refusal (step (before (.request ⟨.timeBase, .port 0x13 []⟩))) = some .wrongAgent ∧
    refusal (step (before (.request ⟨.host, .port 0x21 []⟩))) = some .wrongAgent ∧
    refusal (step (before (.request ⟨.service .hk, .port 0x20 [.service .mem, .num 1, .num 0]⟩))) = some .wrongAgent ∧
    refusal (step (loaded cfgFew (.request ⟨.service .hk,
      .port 0x11 [.num 1, .num 1, .num 1, .num 1, .num 1, .num 1, .bytes []]⟩))) = some .wrongAgent := by decide

/-- A service of another name than the five takes part: it sends a `TC`, waits, and gets the broadcasts. -/
theorem test_step_other_service :
    onNext (step (loaded cfgFew (.request ⟨.service (.other 7),
        .port 0x11 [.num 1, .num 1, .num 1, .num 1, .num 1, .num 1, .bytes []]⟩))) (fun t => t.out.linkTx.length) = some 1 ∧
    onNext (step (loaded cfgFew (.request ⟨.service (.other 7), .port 0x20 [.service (.other 7), .num 3, .num 0x80]⟩)))
        (fun t => (t.gate.get (.other 7), t.gate.services)) =
      some (⟨true, 3, 0, 0x80, true⟩, [.other 7, .mem]) ∧
    onNext (step (loaded cfgFew (.request ⟨.host, .port 0x13 []⟩))) (fun t => (t.out.bcast.entries.map Prod.fst,
        t.out.bcast.get (.other 7), t.out.bcast.get .hk)) = some ([.other 7, .mem], [⟨0, 0, 0, 0⟩], []) := by decide

/-- R174 and R233: a frame comes from the link and goes through `VERIFY`; nobody requests what it selects by itself. -/
theorem test_step_frame :
    onNext (step (before (.request ⟨.link, .frame152 accF⟩))) (fun t => (t.tcv.get .mem, t.out.archive.length)) =
      some (⟨true, false, 0x3816, 0xC001⟩, 1) ∧
    refusal (step (before (.request ⟨.component, .frame152 accF⟩))) = some .wrongAgent ∧
    refusal (step (before (.request ⟨.component,
      .seq2 0b01 [.reasm .memDump, .num 10, .bytes (frag 1), .packet pkt25]⟩))) = some .wrongAgent := by decide

/-- R279: the configuration is loaded once. -/
theorem test_step_load :
    onNext (step { State.reset with inbox := [.loadConfig cfgFew, .loadConfig cfgT] })
        (fun t => (t.booted, t.cfg == cfgFew, t.tcv.services, refusal (step t))) =
      some (true, true, [.other 7, .mem], some .configFixed) := by decide

theorem test_step_undecodable :
    refusal (step (before (.request ⟨.link, .port 0x22 []⟩))) = some (.undecodable (.unknownPort 0x22)) := by decide

theorem test_step_reset :
    onNext (step { waiting with inbox := [.reset, .reset], booted := true }) (fun t => t.gate == s0.gate && !t.booted && t.inbox == [.reset]) = some true := by
  decide

theorem test_step_table_word :
    onNext (step (State.reset.withFetchWord 8 0x13)) (fun t => t.out.bcast.get .fdir) = some [⟨0, 0, 0, 0⟩] ∧
    onNext (step (s0.withFetchWord 16 0x0319)) (fun t => t.out.fwd.hk.map fun E => byteAt E 146) = some [25] ∧
    onNext (step (s0.withFetchWord 2 0b01)) (fun t => t.rs.memDump.phase) = some .collecting ∧
    onNext (step (s0.withFetchWord 2 0b00)) (fun t => t.out.fwd.fdir.map fun E => byteAt E 146) = some [0xE2] := by decide

/-- R250: how the view of the memory service moves. -/
theorem test_lifecycle :
    lifecycle s0 .mem = none ∧ lifecycle waiting .mem = some .awaitingAccept ∧
    onNext (exec (.tcvAccOk (pktT 0x2A 1 1 0 reportPayload)) waiting) (fun t => (lifecycle t .mem, passesAccepted waiting t .mem)) =
      some (some .awaitingExecute, true) ∧
    onNext (exec (.tcvExeOk (pktT 0x2A 1 7 0 reportPayload)) waiting) (fun t => lifecycle t .mem) = some (some .executed) ∧
    onNext (exec .tick { waiting with gate := s0.gate.set .mem ⟨true, 9, 8, 0x80, true⟩ }) (fun t => lifecycle t .mem) =
      some (some .timedOut) ∧
    onNext (exec (.tcvAccOk (pktT 0x2A 1 1 0 reportPayload)) { waiting with gate := s0.gate.set .mem ⟨true, 9, 8, 0, false⟩ })
        (fun t => lifecycle t .mem) = some (some .accepted) := by decide

/-! ### Witnesses: the hypotheses of the obligations are met -/

/-- The witnesses of the statements over the codec: a range that ends at the end of the data and one that leaves it by one. -/
theorem witness_Fletcher16RunsItsLoop :
    (2 : Nat) + 2 ≤ ([1, 2, 3, 4] : Bytes).length ∧ ([1, 2, 3, 4] : Bytes).length < 2 + 3 := by decide

theorem witness_EncodePacksTheFrame :
    s0.cfg.layout = defaultLayout ∧ s0.cfg.cksHiIndex = 1 ∧ s0.cfg.tsWidths.sum = 16 ∧ (frag 1).length = 137 ∧
      (List.replicate 136 (0 : Byte)).length ≠ 137 ∧ (List.replicate 138 (0 : Byte)).length ≠ 137 := by decide

theorem witness_DecodeReadsTheFrame :
    s0.cfg.layout = defaultLayout ∧ s0.cfg.cksHiIndex = 1 ∧ s0.cfg.tsWidths.sum = 16 ∧ accF.length = 152 ∧
      (List.replicate 151 (0 : Byte)).length ≠ 152 ∧ (List.replicate 153 (0 : Byte)).length ≠ 152 := by decide

theorem witness_DecodeInvertsEncode : cfgOdd.wf = true ∧ (frag 3).length = 137 ∧ maxHeader.wf cfgT = true := by
  decide

/-- The frame of V20 and the frame of V26, which has all its pad bits set. -/
theorem witness_EncodeInvertsDecodeOnZeroPads :
    cfgT.layout = defaultLayout ∧ cfgT.tsWidths.sum = 16 ∧
      decodeFrame cfgT (frameW 0x0C40 (tmHdr 0x13 3 25) []) = some pkt25 ∧
      (byteAt (frameW 0x0C40 (tmHdr 0x13 3 25) []) 151).toNat % 8 = 0 ∧
      (byteAt (frameW 0x0C40 (tmHdr 0x13 3 25) []) 149).toNat % 64 = 0 ∧
      byteAt (frameW 0x0C40 (tmHdr 0x13 3 25) []) 147 = 0 ∧
      (byteAt (frameW 0x0C40 [0x2F, 0x13, 0xFF, 0, 0xAA, 0x97, 0x90, 3, 0x19, 0, 0, 0, 0] []) 151).toNat / 8 =
        (byteAt (frameW 0x0C40 (tmHdr 0x13 3 25) []) 151).toNat / 8 ∧
      (byteAt (frameW 0x0C40 [0x2F, 0x13, 0xFF, 0, 0xAA, 0x97, 0x90, 3, 0x19, 0, 0, 0, 0] []) 149).toNat / 64 =
        (byteAt (frameW 0x0C40 (tmHdr 0x13 3 25) []) 149).toNat / 64 ∧
      (List.range 152).all (fun i => i == 147 || i == 149 || i == 151 ||
        byteAt (frameW 0x0C40 [0x2F, 0x13, 0xFF, 0, 0xAA, 0x97, 0x90, 3, 0x19, 0, 0, 0, 0] []) i ==
          byteAt (frameW 0x0C40 (tmHdr 0x13 3 25) []) i) = true := by decide

theorem witness_DecodingInvertsEncodingOfOperations :
    cfgT.wf = true ∧ (Instr.hk25 pkt25).wf cfgT = true ∧
      (Instr.seqCont .schedReport 255 (frag 1) pkt25).wf cfgT = true ∧ (Instr.await .fdir 5 0x82).wf cfgT = true := by
  decide

/-- Each clause of the verifier's statement has a packet that reaches it (V30, V31, V34, V36, V38, V40, V44, V45, V48). -/
theorem witness_VerifyReportsTheFirstFailure :
    s0.cfg.subtypeWl = defaultWhitelist ∧ s0.cfg.memFields = defaultMemFields ∧
      [pkt25, { pkt25 with length := 150 }, { pkt25 with recvChecksum := 0x0C41 }, pktT 0x46 70 1 0 [], pktT 0x13 3 11 0 [],
        pktT 0x14 3 25 0 [], pktT 0x16 6 10 0 [(136, 1), (134, 0x10)], { pkt25 with version := 0 },
        pktT 0x16 6 6 0 [(136, 1), (134, 0x0F), (133, 0xFF), (132, 0xFF)]].map (verifyPacket s0.cfg) =
      [.ok, .reject .lengthMismatch, .reject .checksumMismatch, .reject .unknownServiceType, .reject .unknownSubType,
        .reject .invalidApid, .reject .invalidMemoryAddress, .reject .versionMismatch, .ok] := by decide

/-- Two packets that differ in fields no check reads. -/
theorem witness_VerdictIgnoresUncheckedFields :
    SameForVerify cfgT (pktT 0x2A 1 2 0 []) { pktT 0x2B 1 2 0 [(0, 1)] with seqCount := 5, pktType := 1, ack := 3 } := by
  constructor <;> decide

theorem witness_ChecksumByte255IsRejected :
    decodeFrame cfgT (frameW 0xFF40 (tmHdr 0x13 3 25) []) = some { pkt25 with recvChecksum := 0xFF40 } ∧
      byteAt (frameW 0xFF40 (tmHdr 0x13 3 25) []) 1 = 255 := by decide

theorem witness_RxWrongLengthIsArchivedAndLogged :
    (List.replicate 151 (0 : Byte)).length ≠ 152 ∧ (List.replicate 153 (0 : Byte)).length ≠ 152 := by decide

theorem witness_RxRejectedFrameIsDropped :
    decodeFrame s0.cfg (frameW 0x0C41 (tmHdr 0x13 3 25) []) = some { pkt25 with recvChecksum := 0x0C41 } ∧
      verifyPacket s0.cfg { pkt25 with recvChecksum := 0x0C41 } = .reject .checksumMismatch := by decide

theorem witness_RxPerformsTheSelectedOperation :
    decodeFrame s0.cfg (frameW 0x0C40 (tmHdr 0x13 3 25) []) = some pkt25 ∧ verifyPacket s0.cfg pkt25 = .ok ∧
      dispatchOpOf (selector pkt25) = some .hk25 := by decide

theorem witness_VerifiedPacketsNeverSelectFdir :
    verifyPacket cfgT pkt25 = .ok ∧ cfgT.subtypeWl = defaultWhitelist := by decide

/-- The frame that carries a packet of a pair no row lists. -/
def unlistedF (apid svc sub : Byte) : Bytes := encodeFrame cfgWide (pktT apid svc sub 0 []).header (payloadOf [])

/-- The same with the feeds of `cfgFewWide`: (6, 7) feeds `MEMDUMP` and (69, 5) feeds it too, each with other sequence flags. -/
theorem witness_UnlistedPairsFollowTheirBranch_fed :
    [((0x16 : Byte), (6 : Byte), (7 : Byte), 0b01), (0x45, 69, 5, 0b10)].all (fun x =>
      (decodeFrame (start cfgFewWide).cfg (encodeFrame cfgFewWide
          { (pktT x.1 x.2.1 x.2.2.1 0 []).header with seqFlags := x.2.2.2 } (payloadOf []))).any fun p =>
        verifyPacket (start cfgFewWide).cfg p == .ok && (dispatchOpOf (selector p)).isNone &&
          p.seqFlags == BitVec.ofNat 2 x.2.2.2 && reasmOf (start cfgFewWide).cfg p == some .memDump) = true ∧
    IsFeedOf cfgFewWide .memDump { pktT 0x16 6 7 0 [(0, 1), (1, 2)] with seqFlags := 1 }
      (.seqFirst .memDump 0 [2, 1] { pktT 0x16 6 7 0 [(0, 1), (1, 2)] with seqFlags := 1 }) :=
  ⟨by decide, _, by decide, .inr (.inl ⟨rfl, rfl⟩)⟩

/-- One packet for each clause of the branches: (1, 3), (3, 11), (5, 0), (5, 5), (6, 7), (9, 3) and (69, 5). -/
theorem witness_UnlistedPairsFollowTheirBranch :
    [((0x2A : Byte), (1 : Byte), (3 : Byte)), (0x13, 3, 11), (0x2A, 5, 0), (0x2A, 5, 5), (0x16, 6, 7), (0x19, 9, 3),
        (0x45, 69, 5)].all (fun x => (decodeFrame (start cfgWide).cfg (unlistedF x.1 x.2.1 x.2.2)).any fun p =>
      verifyPacket (start cfgWide).cfg p == .ok && (dispatchOpOf (selector p)).isNone && p.serviceType == x.2.1 &&
        p.serviceSubType == x.2.2 && (reasmOf (start cfgWide).cfg p).isNone) = true := by decide

theorem witness_HousekeepingIsForwarded :
    (Instr.hk26 (pktT 0x13 3 26 0 []), (26 : Byte)) ∈
        [(Instr.hk10 (pktT 0x13 3 26 0 []), 10), (.hk12 (pktT 0x13 3 26 0 []), 12), (.hk25 (pktT 0x13 3 26 0 []), 25),
          (.hk26 (pktT 0x13 3 26 0 []), 26)] ∧
      (pktT 0x13 3 26 0 []).serviceType = 3 ∧ (pktT 0x13 3 26 0 []).serviceSubType = 26 := by decide

theorem witness_FailureEventAlertsFdir :
    (Instr.evt4 pkt25, (4 : Byte)) ∈ [(Instr.evt2 pkt25, 2), (.evt3 pkt25, 3), (.evt4 pkt25, 4)] := by decide

theorem witness_FailureReportAlertsFdir :
    (Instr.tcvExeFail (pktT 0x2A 1 8 0 []), (8 : Byte)) ∈
        [(Instr.tcvAccFail (pktT 0x2A 1 8 0 []), 2), (.tcvExeFail (pktT 0x2A 1 8 0 []), 8)] ∧
      (pktT 0x2A 1 8 0 []).serviceSubType = 8 ∧ (pktT 0x2A 1 2 0 []).serviceSubType = 2 := by decide

/-- The report of V59: the memory service does not wait in `s0`; in `waiting` it waits for a two-phase operation. -/
theorem witness_SuccessReportSetsTheFlags :
    s0.cfg.tcvFields = defaultTcvFields ∧ serviceOfApid s0.cfg (byteAt (pktT 0x2A 1 1 0 reportPayload).payload 135) = some .mem ∧
      (s0.gate.get .mem).waiting = false ∧ (waiting.gate.get .mem).twoPhase = true ∧
      (waiting.tcv.get .mem).executeReceived = false := by decide

theorem witness_SuccessReportEndsTheWait :
    waiting.cfg.tcvFields = defaultTcvFields ∧
      serviceOfApid waiting.cfg (byteAt (pktT 0x2A 1 7 0 reportPayload).payload 135) = some .mem ∧
      (waiting.gate.get .mem).waiting = true ∧
      (Instr.tcvExeOk (pktT 0x2A 1 7 0 reportPayload), true) ∈
        [(Instr.tcvAccOk (pktT 0x2A 1 7 0 reportPayload), false), (.tcvExeOk (pktT 0x2A 1 7 0 reportPayload), true)] := by
  decide

theorem witness_UnknownDestinationIsLogged :
    s0.cfg.tcvFields = defaultTcvFields ∧ serviceOfApid s0.cfg (byteAt (pktT 0x2A 1 1 0 [(135, 0x77)]).payload 135) = none := by
  decide

/-- A first fragment of a memory dump and a standalone schedule report under the default feed, and a memory check report that
`cfgFew` feeds to `SCHEDREPORT` with two payload bytes. -/
theorem witness_FragmentsAreForwardedAndFed :
    s0.cfg.reasmFeed = defaultFeed ∧ s0.cfg.fragSlice = defaultFragSlice ∧ (pktT 0x16 6 6 0 []).payload.length = 137 ∧
      reasmOf s0.cfg (pktT 0x16 6 6 0 []) = some .memDump ∧ reasmOf s0.cfg (pktT 0x45 69 4 0 []) = some .schedReport ∧
      reasmOf cfgFew (pktT 0x16 6 10 0 []) = some .schedReport ∧
      (pktT 0x16 6 10 0 []).serviceType = 6 ∧ (pktT 0x16 6 10 0 []).serviceSubType = 10 ∧
      IsFeedOf cfgFew .schedReport (pktT 0x16 6 10 0 [(0, 1), (1, 2)])
        (.seqStandalone .schedReport 0 [2, 1] (pktT 0x16 6 10 0 [(0, 1), (1, 2)])) :=
  ⟨rfl, rfl, by decide, by decide, by decide, by decide, by decide, by decide, _, by decide, .inr (.inr (.inr ⟨rfl, rfl⟩))⟩

/-- Under the default feed a memory check report feeds nothing; under `cfgFew` neither does a memory dump nor a schedule
report. -/
theorem witness_MemoryCheckIsForwardedOnly :
    s0.cfg.reasmFeed = defaultFeed ∧ (pktT 0x16 6 10 0 []).serviceType = 6 ∧ (pktT 0x16 6 10 0 []).serviceSubType = 10 ∧
      reasmOf s0.cfg (pktT 0x16 6 10 0 []) = none ∧ reasmOf cfgFew (pktT 0x16 6 6 0 []) = none ∧
      reasmOf cfgFew (pktT 0x45 69 4 0 []) = none := by decide

/-- The differences 91, 90, -90 and -91 of V66, with the default services and policy, and with two services and no broadcast on a
write. -/
theorem witness_TimeReportIsAdoptedBeyondNinetyMinutes :
    s0.cfg.services.Nodup ∧ s0.cfg.bcastPolicy.onWrite = true ∧ cfgFew.services.Nodup ∧ cfgFew.bcastPolicy.onWrite = false ∧
      Service.hk ∉ cfgFew.services ∧
      (⟨1, 4, 15, 9⟩ : Time).fits s0.cfg.ltWidths = true ∧ (⟨1, 1, 15, 9⟩ : Time).fits cfgFew.ltWidths = true ∧
      timeDelta ⟨1, 4, 15, 9⟩ ⟨1, 2, 44, 0⟩ = 91 ∧ timeDelta ⟨1, 4, 15, 9⟩ ⟨1, 2, 45, 0⟩ = 90 ∧
      timeDelta ⟨1, 1, 15, 9⟩ ⟨1, 2, 45, 0⟩ = -90 ∧ timeDelta ⟨1, 1, 15, 9⟩ ⟨1, 2, 46, 0⟩ = -91 := by decide

/-- No frames, 256 frames, one frame too few, one too many. -/
theorem witness_TcOutsidePreconditionIsRefused :
    [(0, 0), (256, 34936), (1, 138), (2, 137)].all (fun x : Nat × Nat =>
      !decide (1 ≤ x.1 ∧ x.1 ≤ 255 ∧ x.2 ≤ 137 * x.1 ∧ (x.1 = 1 ∨ 137 * (x.1 - 1) < x.2))) = true := by decide

/-- One frame without data and full, two frames with one byte more, 255 full frames. -/
theorem witness_TcEmitsItsFrames :
    [(1, 0), (1, 137), (2, 138), (255, 34935)].all (fun x : Nat × Nat =>
      decide (1 ≤ x.1 ∧ x.1 ≤ 255 ∧ x.2 ≤ 137 * x.1 ∧ (x.1 = 1 ∨ 137 * (x.1 - 1) < x.2))) = true ∧
      s0.cfg.typeTc = 1 := by decide

theorem witness_TcFramesCarryTheWholeData : s0.cfg.wf = true ∧ ∃ t, exec (.tc 0x16 0x2A 6 2 5 1 [0xDE, 0xAD]) s0 = .next t :=
  ⟨by decide, _, rfl⟩

theorem witness_LtSetWritesAndBroadcasts :
    s0.cfg.services.Nodup ∧ s0.cfg.ltWidths = defaultLtWidths ∧ s0.cfg.bcastPolicy.onWrite = true ∧
      cfgFew.services.Nodup ∧ cfgFew.ltWidths ≠ defaultLtWidths ∧ cfgFew.bcastPolicy.onWrite = false := by decide

/-- With a set of services that leaves one out. -/
theorem witness_BcastSendsTheLocalTime :
    cfgFew.services.Nodup ∧ cfgFew.bcastPolicy.onRequest = true ∧ Service.other 7 ∈ cfgFew.services ∧
      Service.hk ∉ cfgFew.services := by decide

theorem witness_FirstOpensASession : (s0.rs.get .schedReport).phase = .idle := by decide

theorem witness_StandaloneFlushesItsFragment : (s0.rs.get .memDump).phase = .idle := by decide

theorem witness_LaterFragmentsAreAppended :
    (collecting.rs.get .memDump).phase = .collecting ∧
      (collecting.rs.get .memDump).lastSequenceCount.toNat < (11 : Byte).toNat := by decide

/-- A `FIRST` and a `STANDALONE` while collecting, a count that does not increase, and a bare `CONTINUATION`. -/
theorem witness_ViolationDiscardsTheSession :
    (collecting.rs.get .memDump).phase ≠ .idle ∧
      (10 : Byte).toNat ≤ (collecting.rs.get .memDump).lastSequenceCount.toNat ∧ (s0.rs.get .memDump).phase ≠ .collecting := by
  decide

/-- The four fragments of S5. -/
theorem witness_TransferIsReassembled :
    (s0.rs.get .memDump).phase = .idle ∧
      ((((10 : Byte), [(1 : Byte)]) :: [((11 : Byte), [(2 : Byte)]), (12, [3])] ++ [((13 : Byte), [(4 : Byte)])]).map
        fun f => f.1.toNat).Pairwise (· < ·) := by decide

theorem witness_SessionsAreIndependent :
    Reasm.schedReport ≠ Reasm.memDump ∧ ∃ t, exec (.seqCont .schedReport 3 [1] pkt25) collecting = .next t :=
  ⟨by decide, _, rfl⟩

/-- A free cell: the flags that satisfy a two-phase wait, and flags that do not. -/
theorem witness_AwaitArmsOrResolves :
    Service.mem ∈ s0.cfg.services ∧ 4294967295 < 2 ^ s0.cfg.timerWidth ∧ (s0.gate.get .mem).waiting = false ∧
      (0x80 : Byte) ∈ s0.cfg.twoPhase ∧ (0x7F : Byte) ∉ s0.cfg.twoPhase ∧ (s0.tcv.get .mem).acceptReceived = false ∧
      (({ s0 with tcv := s0.tcv.set .mem ⟨true, true, 0, 0⟩ } : State).tcv.get .mem) = ⟨true, true, 0, 0⟩ := by
  decide

theorem witness_SecondAwaitIsRefused :
    (waiting.gate.get .mem).waiting = true ∧ Service.mem ∈ waiting.cfg.services ∧ 7 < 2 ^ waiting.cfg.timerWidth ∧
      Service.fdir ∉ cfgFew.services ∧ 2 ^ s0.cfg.timerWidth ≤ 4294967296 := by
  decide

/-- A cell that is about to time out and one that is not. -/
theorem witness_TickAdvancesTheWaitingCells :
    s0.cfg.services.Nodup ∧ (waiting.gate.get .mem).waiting = true ∧
      ¬ (waiting.gate.get .mem).timeout ≤ (waiting.gate.get .mem).elapsed + 1 := by decide

theorem witness_WaitTimesOutAtTheNthTick :
    s0.cfg.services.Nodup ∧ ∃ t, exec (.await .mem 3 0x10) s0 = .next t ∧ (t.gate.get .mem).waiting = true :=
  ⟨by decide, _, rfl, rfl⟩

/-- What moves the view of R250: a report while the memory service awaits acceptance, and one while it awaits execution; an
operation on a service that does not wait; and an `AWAIT`. -/
theorem witness_LifecycleFollowsTheChain :
    (∃ t, exec (.tcvAccOk (pktT 0x2A 1 1 0 reportPayload)) waiting = .next t ∧ lifecycle waiting .mem = some .awaitingAccept ∧
      lifecycle t .mem = some .awaitingExecute ∧ ∃ u, exec .tick t = .next u) ∧
    (∃ t, exec .tick s0 = .next t ∧ (s0.gate.get .mem).waiting = false) ∧ ∃ t, exec (.await .mem 3 0x10) s0 = .next t :=
  ⟨⟨_, rfl, by decide, by decide, _, rfl⟩, ⟨_, rfl, by decide⟩, _, rfl⟩

/-- A request of the host, allowed, and the same of the time base, not allowed; a frame of the link and one of a component; words
that decode to nothing; no event. -/
theorem witness_StepPerformsTheNextRequest :
    (before (.request ⟨.host, .port 0x13 []⟩)).inbox = .request ⟨.host, .port 0x13 []⟩ :: [] ∧
      (∀ F, Words.port 0x13 [] ≠ .frame152 F) ∧
      decode s0.cfg (.port 0x13 []) = .ok .bcast ∧ permits s0.cfg .host .bcast = true ∧
      permits s0.cfg .timeBase .bcast = false ∧
      (before (.request ⟨.link, .frame152 accF⟩)).inbox = .request ⟨.link, .frame152 accF⟩ :: [] ∧
      (before (.request ⟨.component, .frame152 accF⟩)).inbox = .request ⟨.component, .frame152 accF⟩ :: [] ∧
      decode s0.cfg (.port 0x22 []) = .error (.unknownPort 0x22) ∧ s0.inbox = [] :=
  ⟨rfl, fun _ h => Words.noConfusion h, rfl, rfl, rfl, rfl, rfl, rfl, rfl⟩

theorem witness_ResetClearsTheState : (before .reset).inbox = .reset :: [] := rfl

/-- A load before the configuration is fixed, well-formed and not; and one in a state in which it is fixed. -/
theorem witness_ConfigurationLoadsOnlyAtBoot :
    (before (.loadConfig cfgT)).inbox = .loadConfig cfgT :: [] ∧ (before (.loadConfig cfgT)).booted = false ∧
      cfgT.wf = true ∧ ({ cfgT with tsWidths := ⟨4, 4, 4, 5⟩ } : Config).wf = false ∧
      (loaded cfgFew (.loadConfig cfgT)).inbox = .loadConfig cfgT :: [] ∧ (loaded cfgFew (.loadConfig cfgT)).booted = true :=
  ⟨rfl, rfl, by decide, by decide, rfl, rfl⟩

/-- A first fragment of a memory dump arrives, and the session changes. -/
theorem witness_SessionsAreFedByVerifiedFramesOnly :
    ∃ t, step (before (.request ⟨.link, .frame152 (fragmentFrame cfgT 0b01)⟩)) = .next t ∧
      t.rs.get .memDump ≠ (before (.request ⟨.link, .frame152 (fragmentFrame cfgT 0b01)⟩)).rs.get .memDump :=
  ⟨_, rfl, by decide⟩

theorem witness_OperationsKeepTheConfiguration : ∃ t, exec .bcast s0 = .next t := ⟨_, rfl⟩

/-- A success that clears both flags, by an operation that is no report. -/
theorem witness_OnlyReportsSetTheFlags :
    ∃ t, exec (.await .mem 0 0x80) { s0 with tcv := s0.tcv.set .mem ⟨true, true, 0, 0⟩ } = .next t ∧
      (t.tcv.get .mem).acceptReceived = false := ⟨_, rfl, rfl⟩

/-- An adoption, and an operation that does not touch the local time. -/
theorem witness_LocalTimeHasItsWriters :
    (∃ t, exec (.time2 { pktT 0x19 9 2 0 [] with ts := ⟨15, 15, 15, 15⟩ }) s0 = .next t ∧ t.prevValid ≠ s0.prevValid) ∧
      ∃ t, exec .tick s0 = .next t := ⟨⟨_, rfl, by decide⟩, _, rfl⟩

/-- A frame latched, and an operation that writes no buffer. -/
theorem witness_BuffersHaveTheirWriters : accF.length = 152 ∧ (∃ t, exec (.rx accF) s0 = .next t) ∧ ∃ t, exec .tick s0 = .next t :=
  ⟨by decide, ⟨_, rfl⟩, _, rfl⟩

theorem witness_EveryAwaitGetsOneResult : ∃ t, exec (.await .mem 3 0x10) s0 = .next t := ⟨_, rfl⟩

theorem witness_OutputPortsOnlyGrow : ∃ t, exec (.seqStandalone .memDump 0 [1] pkt25) s0 = .next t := ⟨_, rfl⟩

/-- The invariants hold of the reset state with CFG-T and a request scheduled, and its step has a next state. -/
theorem witness_StepKeepsTheInvariants :
    let s := before (.request ⟨.service .mem, .port 0x20 [.service .mem, .num 3, .num 0x10]⟩)
    BootInv s ∧ GateInv s ∧ BankInv s ∧ ReasmInv s ∧ BufferInv s ∧ WidthInv s ∧ BufferSizes s ∧ PortInv s ∧
      ∃ t, step s = .next t := by
  have hg : ∀ sv, ((PerService.fresh cfgT.services resetGate).get sv) = resetGate := PerService.get_fresh_gate _
  refine ⟨⟨by decide, fun _ => rfl⟩, ?_, ⟨by decide, by decide, by decide, by decide⟩, ?_, ?_, ⟨by decide, by decide, by decide, ?_⟩, ⟨by decide, by decide⟩,
    ⟨?_, ?_⟩, _, rfl⟩
  · intro sv h
    exact absurd ((congrArg GateCell.waiting (hg sv)).symm.trans h) (by decide)
  · intro k
    cases k <;> decide
  · intro k
    cases k <;> decide
  · intro sv
    exact (hg sv).symm ▸ by decide
  · intro c E h
    cases c <;> cases h
  · intro F h
    cases h

end Sys2Proof.Tests
end

/-! ### The frame of an operation: which parts of the state it may write -/

namespace Sys2Proof.Machine

/-- The parts of the state that only some operations write. `prevLt` stands for `PREV_LT` and `PREV_VALID` (R29), `result` and
`bcast` for the ports with a bank over `SERVICES` (R43). -/
inductive Part where
  | frame | pkt | lt | prevLt | tcv | rs | gate | result | bcast

/-- The frame of what leads from `s` to `t`: nothing but the parts `P` and the other output ports is written, the ports only
grow (R38), and `PREV_VALID` is never cleared (R29). -/
structure Touches (P : List Part) (s t : State) : Prop where
  cfg : t.cfg = s.cfg
  inbox : t.inbox = s.inbox
  booted : t.booted = s.booted
  ports : PortsExtend s t
  stillValid : s.prevValid = true → t.prevValid = true
  frame : .frame ∉ P → t.frame = s.frame
  pkt : .pkt ∉ P → t.pkt = s.pkt
  lt : .lt ∉ P → t.lt = s.lt
  prevLt : .prevLt ∉ P → t.prevLt = s.prevLt ∧ t.prevValid = s.prevValid
  tcv : .tcv ∉ P → t.tcv = s.tcv
  rs : .rs ∉ P → t.rs = s.rs
  gate : .gate ∉ P → t.gate = s.gate
  result : .result ∉ P → t.out.result = s.out.result
  bcast : .bcast ∉ P → t.out.bcast = s.out.bcast

/-- The parts that each operation may write. -/
def written : Instr → List Part
  | .tcvAccOk _ | .tcvExeOk _ | .await _ _ _ | .tick => [.tcv, .gate, .result]
  | .tcvAccFail _ | .tcvExeFail _ => []
  | .hk10 _ | .hk12 _ | .hk25 _ | .hk26 _ => []
  | .evt1 _ | .evt2 _ | .evt3 _ | .evt4 _ => []
  | .mem6 _ | .mem10 _ | .sched4 _ => [.rs]
  | .seqCont _ _ _ _ | .seqFirst _ _ _ _ | .seqLast _ _ _ _ | .seqStandalone _ _ _ _ => [.rs]
  | .time2 _ => [.lt, .prevLt, .bcast]
  | .fdirFwd _ => []
  | .fletcher16 _ _ _ | .encode _ _ | .verify _ | .tc _ _ _ _ _ _ _ => []
  | .decode _ => [.pkt]
  | .rx _ => [.frame, .pkt, .lt, .prevLt, .tcv, .rs, .gate, .result, .bcast]
  | .ltSet _ _ _ _ => [.lt, .bcast]
  | .bcast => [.bcast]

section Ports

variable {α : Type} {a b c : List α} {s t u : State}

theorem extends_refl (a : List α) : ∃ l, a = a ++ l := ⟨[], by simp⟩

theorem extends_trans (h : ∃ l, b = a ++ l) (h' : ∃ l, c = b ++ l) : ∃ l, c = a ++ l := by
  obtain ⟨l, rfl⟩ := h
  obtain ⟨l', rfl⟩ := h'
  exact ⟨l ++ l', by simp⟩

theorem PortsExtend.of_out_eq (h : t.out = s.out) : PortsExtend s t := by
  constructor <;> simp only [h] <;> intros <;> exact extends_refl _

theorem PortsExtend.trans (h : PortsExtend s t) (h' : PortsExtend t u) : PortsExtend s u where
  archive := extends_trans h.archive h'.archive
  log := extends_trans h.log h'.log
  fwd c := extends_trans (h.fwd c) (h'.fwd c)
  linkTx := extends_trans h.linkTx h'.linkTx
  sink k := extends_trans (h.sink k) (h'.sink k)
  result sv := extends_trans (h.result sv) (h'.result sv)
  bcast sv := extends_trans (h.bcast sv) (h'.bcast sv)

theorem emitArchive_extends (b : Bytes) (s : State) : PortsExtend s (emitArchive b s) :=
  { PortsExtend.of_out_eq (t := s) rfl with archive := ⟨_, rfl⟩ }

theorem emitLog_extends (e : LogEvent) (s : State) : PortsExtend s (emitLog e s) :=
  { PortsExtend.of_out_eq (t := s) rfl with log := ⟨_, rfl⟩ }

theorem emitLinkTx_extends (Fs : List Bytes) (s : State) : PortsExtend s (emitLinkTx Fs s) :=
  { PortsExtend.of_out_eq (t := s) rfl with linkTx := ⟨_, rfl⟩ }

theorem emitFwd_extends (c : Consumer) (E : Bytes) (s : State) : PortsExtend s (emitFwd c E s) :=
  { PortsExtend.of_out_eq (t := s) rfl with
    fwd := fun d => by
      rw [emitFwd_out_fwd, PerConsumer.get_set]
      split
      · subst d
        exact ⟨_, rfl⟩
      · exact extends_refl _ }

theorem emitSink_extends (k : Reasm) (b : Bytes) (s : State) : PortsExtend s (emitSink k b s) :=
  { PortsExtend.of_out_eq (t := s) rfl with
    sink := fun j => by
      rw [emitSink_out_sink, PerReasm.get_set]
      split
      · subst j
        exact ⟨_, rfl⟩
      · exact extends_refl _ }

theorem emitResult_extends (sv : Service) (r : GateResult) (s : State) : PortsExtend s (emitResult sv r s) :=
  { PortsExtend.of_out_eq (t := s) rfl with
    result := fun sv' => by
      rw [emitResult_out_result, PerService.get_set]
      split
      · subst sv'
        exact ⟨_, rfl⟩
      · exact extends_refl _ }

theorem emitBcast_extends (t : Time) (s : State) (sv : Service) : PortsExtend s (emitBcast t s sv) :=
  { PortsExtend.of_out_eq (t := s) rfl with
    bcast := fun sv' => by
      rw [emitBcast_out_bcast, PerService.get_set]
      split
      · subst sv'
        exact ⟨_, rfl⟩
      · exact extends_refl _ }

end Ports

section Primitives

variable {P Q : List Part} {s t u : State}

theorem Touches.refl (P : List Part) (s : State) : Touches P s s := by
  constructor <;> simp [PortsExtend.of_out_eq]

theorem Touches.trans (h : Touches P s t) (h' : Touches P t u) : Touches P s u where
  cfg := h'.cfg.trans h.cfg
  inbox := h'.inbox.trans h.inbox
  booted := h'.booted.trans h.booted
  ports := h.ports.trans h'.ports
  stillValid hv := h'.stillValid (h.stillValid hv)
  frame hP := (h'.frame hP).trans (h.frame hP)
  pkt hP := (h'.pkt hP).trans (h.pkt hP)
  lt hP := (h'.lt hP).trans (h.lt hP)
  prevLt hP := ⟨(h'.prevLt hP).1.trans (h.prevLt hP).1, (h'.prevLt hP).2.trans (h.prevLt hP).2⟩
  tcv hP := (h'.tcv hP).trans (h.tcv hP)
  rs hP := (h'.rs hP).trans (h.rs hP)
  gate hP := (h'.gate hP).trans (h.gate hP)
  result hP := (h'.result hP).trans (h.result hP)
  bcast hP := (h'.bcast hP).trans (h.bcast hP)

theorem Touches.mono (h : Touches P s t) (hPQ : P ⊆ Q) : Touches Q s t :=
  { h with
    frame := fun hQ => h.frame (mt (@hPQ _) hQ)
    pkt := fun hQ => h.pkt (mt (@hPQ _) hQ)
    lt := fun hQ => h.lt (mt (@hPQ _) hQ)
    prevLt := fun hQ => h.prevLt (mt (@hPQ _) hQ)
    tcv := fun hQ => h.tcv (mt (@hPQ _) hQ)
    rs := fun hQ => h.rs (mt (@hPQ _) hQ)
    gate := fun hQ => h.gate (mt (@hPQ _) hQ)
    result := fun hQ => h.result (mt (@hPQ _) hQ)
    bcast := fun hQ => h.bcast (mt (@hPQ _) hQ) }

/-- A list of operations, one after the other, touches what each of them touches. -/
theorem foldl_touches {α : Type} {f : State → α → State} (hf : ∀ s a, Touches P s (f s a)) (l : List α) (s : State) :
    Touches P s (l.foldl f s) := by
  induction l generalizing s with
  | nil => exact .refl P s
  | cons a l ih => exact (hf s a).trans (ih (f s a))

theorem emitArchive_touches (b : Bytes) (s : State) : Touches P s (emitArchive b s) :=
  { Touches.refl P s with ports := emitArchive_extends b s }

theorem emitLog_touches (e : LogEvent) (s : State) : Touches P s (emitLog e s) :=
  { Touches.refl P s with ports := emitLog_extends e s }

theorem emitFwd_touches (c : Consumer) (E : Bytes) (s : State) : Touches P s (emitFwd c E s) :=
  { Touches.refl P s with ports := emitFwd_extends c E s }

theorem emitLinkTx_touches (Fs : List Bytes) (s : State) : Touches P s (emitLinkTx Fs s) :=
  { Touches.refl P s with ports := emitLinkTx_extends Fs s }

theorem emitSink_touches (k : Reasm) (b : Bytes) (s : State) : Touches P s (emitSink k b s) :=
  { Touches.refl P s with ports := emitSink_extends k b s }

theorem emitReturn_touches (v : ReturnValue) (s : State) : Touches P s (emitReturn v s) :=
  { Touches.refl P s with ports := .of_out_eq rfl }

theorem emitResult_touches (hP : .result ∈ P) (sv : Service) (r : GateResult) (s : State) :
    Touches P s (emitResult sv r s) :=
  { Touches.refl P s with ports := emitResult_extends sv r s, result := absurd hP }

theorem emitBcast_touches (hP : .bcast ∈ P) (t : Time) (s : State) (sv : Service) : Touches P s (emitBcast t s sv) :=
  { Touches.refl P s with ports := emitBcast_extends t s sv, bcast := absurd hP }

theorem loadFrame_touches (hP : .frame ∈ P) (b : Bytes) (s : State) : Touches P s (loadFrame b s) :=
  { Touches.refl P s with ports := .of_out_eq rfl, frame := absurd hP }

theorem loadPkt_touches (hP : .pkt ∈ P) (p : Packet) (s : State) : Touches P s (loadPkt p s) :=
  { Touches.refl P s with ports := .of_out_eq rfl, pkt := absurd hP }

theorem setLt_touches (hP : .lt ∈ P) (t : Time) (s : State) : Touches P s (setLt t s) :=
  { Touches.refl P s with ports := .of_out_eq rfl, lt := absurd hP }

theorem retainLt_touches (hP : .prevLt ∈ P) (s : State) : Touches P s (retainLt s) :=
  { Touches.refl P s with ports := .of_out_eq rfl, stillValid := fun _ => rfl, prevLt := absurd hP }

theorem setTcv_touches (hP : .tcv ∈ P) (sv : Service) (v : TcvState) (s : State) : Touches P s (setTcv sv v s) :=
  { Touches.refl P s with ports := .of_out_eq rfl, tcv := absurd hP }

theorem setRs_touches (hP : .rs ∈ P) (k : Reasm) (r : ReasmState) (s : State) : Touches P s (setRs k r s) :=
  { Touches.refl P s with ports := .of_out_eq rfl, rs := absurd hP }

theorem setGate_touches (hP : .gate ∈ P) (sv : Service) (g : GateCell) (s : State) : Touches P s (setGate sv g s) :=
  { Touches.refl P s with ports := .of_out_eq rfl, gate := absurd hP }

end Primitives

/-! The shared operations -/

/-- What ends or begins a wait touches the verification bank, the gate and the results. -/
theorem gateSuccess_touches (sv : Service) (s : State) : Touches [.tcv, .gate, .result] s (gateSuccess sv s) :=
  (setTcv_touches (by simp) sv _ s).trans <| (setGate_touches (by simp) sv _ _).trans <|
    (emitLog_touches _ _).trans (emitResult_touches (by simp) sv .ok _)

theorem gateTimedOut_touches (sv : Service) (s : State) : Touches [.tcv, .gate, .result] s (gateTimedOut sv s) :=
  (setGate_touches (by simp) sv _ s).trans <| (emitLog_touches _ _).trans <|
    (emitFwd_touches .fdir _ _).trans (emitResult_touches (by simp) sv .fail _)

theorem signal_touches (sv : Service) (s : State) : Touches [.tcv, .gate, .result] s (signal sv s) := by
  unfold signal
  split
  · exact gateSuccess_touches sv s
  · exact .refl _ s

theorem emitBcastAll_touches (s : State) : Touches [.bcast] s (emitBcastAll s) :=
  foldl_touches (emitBcast_touches (by simp) s.lt) _ s

theorem broadcastWrite_touches (s : State) : Touches [.bcast] s (broadcastWrite s) := by
  unfold broadcastWrite
  split
  · exact emitBcastAll_touches s
  · exact .refl _ s

theorem successReport_touches (completion : Bool) (p : Packet) (s : State) :
    Touches [.tcv, .gate, .result] s (successReport completion p s) := by
  unfold successReport
  split
  · exact emitLog_touches _ s
  · exact (setTcv_touches (by simp) _ _ s).trans (signal_touches _ _)

theorem failureReport_touches (n : Byte) (p : Packet) (s : State) : Touches [] s (failureReport n p s) :=
  (emitLog_touches _ s).trans (emitFwd_touches .fdir _ _)

theorem alertingEvent_touches (n : Byte) (p : Packet) (s : State) : Touches [] s (alertingEvent n p s) :=
  (emitLog_touches _ s).trans (emitFwd_touches .fdir _ _)

theorem forwardEnvelope_touches {P : List Part} (c : Consumer) (p : Packet) (s : State) :
    Touches P s (forwardEnvelope c p s) := emitFwd_touches c _ s

theorem timesync_touches (p : Packet) (s : State) : Touches [.lt, .prevLt, .bcast] s (timesync p s) := by
  unfold timesync
  split
  · exact (retainLt_touches (by simp) s).trans <| (setLt_touches (by simp) _ _).trans <|
      (emitFwd_touches .fdir _ _).trans <| (broadcastWrite_touches _).mono (by simp)
  · exact .refl _ s

theorem violation_touches (k : Reasm) (src : Packet) (s : State) : Touches [.rs] s (violation k src s) :=
  (setRs_touches (by simp) k _ s).trans (emitFwd_touches .fdir _ _)

theorem flush_touches (k : Reasm) (s : State) : Touches [.rs] s (flush k s) :=
  (emitSink_touches k _ s).trans (setRs_touches (by simp) k _ _)

theorem runSeqFirst_touches (k : Reasm) (c : Byte) (frag : Bytes) (src : Packet) (s : State) :
    Touches [.rs] s (runSeqFirst k c frag src s) := by
  unfold runSeqFirst
  split
  · exact setRs_touches (by simp) k _ s
  · exact violation_touches k src s

theorem runSeqStandalone_touches (k : Reasm) (c : Byte) (frag : Bytes) (src : Packet) (s : State) :
    Touches [.rs] s (runSeqStandalone k c frag src s) := by
  unfold runSeqStandalone
  split
  · exact (setRs_touches (by simp) k _ s).trans (flush_touches k _)
  · exact violation_touches k src s

theorem runSeqCont_touches (k : Reasm) (c : Byte) (frag : Bytes) (src : Packet) (s : State) :
    Touches [.rs] s (runSeqCont k c frag src s) := by
  unfold runSeqCont
  split
  · exact setRs_touches (by simp) k _ s
  · exact violation_touches k src s

theorem runSeqLast_touches (k : Reasm) (c : Byte) (frag : Bytes) (src : Packet) (s : State) :
    Touches [.rs] s (runSeqLast k c frag src s) := by
  unfold runSeqLast
  split
  · exact (setRs_touches (by simp) k _ s).trans (flush_touches k _)
  · exact violation_touches k src s

theorem feedReasm_touches (k : Reasm) (p : Packet) (s : State) : Touches [.rs] s (feedReasm k p s) := by
  unfold feedReasm
  split
  · exact runSeqCont_touches ..
  · exact runSeqFirst_touches ..
  · exact runSeqLast_touches ..
  · exact runSeqStandalone_touches ..

theorem feedByConfig_touches (p : Packet) (s : State) : Touches [.rs] s (feedByConfig p s) := by
  unfold feedByConfig
  split
  · exact feedReasm_touches _ p s
  · exact .refl _ s

/-- The forward that also feeds a reassembler, R192, R193 and R195. -/
theorem feed_forward_touches (c : Consumer) (p : Packet) (s : State) :
    Touches [.rs] s (feedByConfig p (forwardEnvelope c p s)) :=
  (forwardEnvelope_touches c p s).trans (feedByConfig_touches p _)

/-! The Router -/

/-- What the dispatch of a verified packet can do, R174: the meanings that the rows of R107 and the branches of the service
types share. -/
inductive DispatchEffect (p : Packet) (s : State) : State → Prop
  | nothing : DispatchEffect p s s
  | report (completion : Bool) : DispatchEffect p s (successReport completion p s)
  | failure (subtype : Byte) : DispatchEffect p s (failureReport subtype p s)
  | log (e : LogEvent) : DispatchEffect p s (emitLog e s)
  | alert (severity : Byte) : DispatchEffect p s (alertingEvent severity p s)
  | forward (c : Consumer) : DispatchEffect p s (forwardEnvelope c p s)
  | feed (c : Consumer) : DispatchEffect p s (feedByConfig p (forwardEnvelope c p s))
  | time : DispatchEffect p s (timesync p s)

theorem runDispatchOp_effect (op : DispatchOp) (p : Packet) (s : State) : DispatchEffect p s (runDispatchOp op p s) := by
  cases op with
  | tcvAccOk => exact .report false
  | tcvExeOk => exact .report true
  | tcvAccFail => exact .failure p.serviceSubType
  | tcvExeFail => exact .failure 8
  | hk10 | hk12 | hk25 | hk26 => exact .forward .hk
  | evt1 => exact .log (.eventReport p)
  | evt2 => exact .alert 2
  | evt3 => exact .alert 3
  | evt4 => exact .alert 4
  | mem6 | mem10 => exact .feed .mem
  | sched4 => exact .feed .sched
  | time2 => exact .time
  | fdirFwd => exact .forward .fdir

theorem runBranch_effect (p : Packet) (s : State) : DispatchEffect p s (runBranch p s) := by
  unfold runBranch
  split_ifs
  · exact .nothing
  · exact .forward .hk
  · exact .alert p.serviceSubType
  · exact .log (.eventReport p)
  · exact .feed .mem
  · exact .time
  · exact .feed .sched
  · exact .forward .fdir
  · exact .log (.error .undispatched)

theorem dispatch_effect (p : Packet) (s : State) : DispatchEffect p s (dispatch p s) := by
  unfold dispatch
  split
  · exact runDispatchOp_effect _ p s
  · exact runBranch_effect p s

theorem DispatchEffect.touches {p : Packet} {s t : State} (h : DispatchEffect p s t) :
    Touches [.lt, .prevLt, .tcv, .rs, .gate, .result, .bcast] s t := by
  cases h with
  | nothing => exact .refl _ s
  | report completion => exact (successReport_touches completion p s).mono (by simp)
  | failure n => exact (failureReport_touches n p s).mono (by simp)
  | log e => exact emitLog_touches e s
  | alert n => exact (alertingEvent_touches n p s).mono (by simp)
  | forward c => exact forwardEnvelope_touches c p s
  | feed c => exact (feed_forward_touches c p s).mono (by simp)
  | time => exact (timesync_touches p s).mono (by simp)

theorem routeVerdict_touches (p : Packet) (s : State) (v : Verdict) :
    Touches [.lt, .prevLt, .tcv, .rs, .gate, .result, .bcast] s (routeVerdict p s v) := by
  cases v with
  | reject reason => exact emitLog_touches (.error reason) s
  | ok => exact (emitLog_touches .verifyOk s).trans (dispatch_effect p _).touches

theorem runRx_touches (B : Bytes) (s : State) : Touches (written (.rx B)) s (runRx B s) := by
  refine (emitArchive_touches B s).trans ?_
  unfold runRx
  split
  · exact emitLog_touches _ _
  · exact (loadFrame_touches (by simp [written]) B _).trans <| (loadPkt_touches (by simp [written]) _ _).trans <|
      (routeVerdict_touches _ _ _).mono (by simp [written])

/-- What `RX` of a frame does, R171: it latches and decodes the frame, then routes it by the verdict. -/
theorem runRx_of_decodeFrame {B : Bytes} {p : Packet} {s : State} (h : decodeFrame s.cfg B = some p) :
    runRx B s = routeVerdict p (loadPkt p (loadFrame B (emitArchive B s))) (verifyPacket s.cfg p) := by
  simp [runRx, h]

/-- What `RX` of a byte list of another length does, R172. -/
theorem runRx_of_decodeFrame_none {B : Bytes} {s : State} (h : decodeFrame s.cfg B = none) :
    runRx B s = emitLog (.error .frameLengthError) (emitArchive B s) := by
  simp [runRx, h, raiseError]

/-- A delivered frame is what the latch holds after the step, R21 and R171: nothing after the latch writes it. -/
theorem runRx_frame {B : Bytes} (s : State) (hB : B.length = 152) : (runRx B s).frame = B := by
  rw [runRx_of_decodeFrame (decodeFrame_of_length hB)]
  exact (routeVerdict_touches _ _ _).frame (by simp)

/-! The gate and the whole of the operations -/

theorem runAwait_touches (sv : Service) (timeout : Nat) (op : Byte) (s : State) :
    Touches [.tcv, .gate, .result] s (runAwait sv timeout op s) := by
  refine (setGate_touches (by simp) sv (armedCell s.cfg timeout op) s).trans ?_
  dsimp only [runAwait]
  split_ifs
  · exact gateSuccess_touches sv _
  · exact gateTimedOut_touches sv _
  · exact setGate_touches (by simp) sv _ _

theorem tickCell_touches (s : State) (sv : Service) : Touches [.tcv, .gate, .result] s (tickCell s sv) := by
  dsimp only [tickCell]
  split_ifs
  · exact (setGate_touches (by simp) sv _ s).trans (gateTimedOut_touches sv _)
  · exact setGate_touches (by simp) sv _ s
  · exact .refl _ s

/-- What holds of the state that an operation computes holds of the state it answers. -/
theorem of_next {p : State → Prop} {t u : State} (h : Host.Outcome.next u = (.next t : Result)) (hu : p u) : p t :=
  Host.Outcome.next.inj h ▸ hu

/-! What the operations that can be refused answer when they are not -/

section Refusable

variable {s t : State}

theorem execFletcher16_next {data : Bytes} {offset count : Nat} (h : execFletcher16 data offset count s = .next t) :
    offset + count ≤ data.length ∧ t = emitReturn (.checksum (fletcher16 data offset count)) s := by
  unfold execFletcher16 at h
  split at h
  · exact ⟨‹_›, (Host.Outcome.next.inj h).symm⟩
  · cases h

theorem execEncode_next {hd : Header} {payload : Bytes} (h : execEncode hd payload s = .next t) :
    payload.length = 137 ∧ t = emitReturn (.frame (encodeFrame s.cfg hd payload)) s := by
  unfold execEncode at h
  split at h
  · exact ⟨‹_›, (Host.Outcome.next.inj h).symm⟩
  · cases h

/-- `DECODE` is never refused: it answers the packet, or the error of R138. -/
theorem execDecode_next {B : Bytes} (h : execDecode B s = .next t) :
    (∃ p, decodeFrame s.cfg B = some p ∧ t = emitReturn (.packet p) (loadPkt p s)) ∨
      decodeFrame s.cfg B = none ∧ t = emitReturn (.frameLengthError B.length) s := by
  unfold execDecode at h
  split at h
  · exact .inl ⟨_, ‹_›, (Host.Outcome.next.inj h).symm⟩
  · exact .inr ⟨‹_›, (Host.Outcome.next.inj h).symm⟩

theorem execTc_next {sender dest svc sub k : Byte} {n : Nat} {appData : Bytes}
    (h : execTc sender dest svc sub k n appData s = .next t) :
    tcAdmitted n appData.length = true ∧ t = emitLinkTx (tcFrames s.cfg s.lt sender dest svc sub k n appData) s := by
  unfold execTc at h
  split at h
  · exact ⟨‹_›, (Host.Outcome.next.inj h).symm⟩
  · cases h

theorem execAwait_next {sv : Service} {timeout : Nat} {op : Byte} (h : execAwait sv timeout op s = .next t) :
    sv ∈ s.cfg.services ∧ timeout < 2 ^ s.cfg.timerWidth ∧ (s.gate.get sv).waiting = false ∧
      t = runAwait sv timeout op s := by
  unfold execAwait at h
  split_ifs at h with hsv hwide hwaits
  exact ⟨by simpa using hsv, Nat.lt_of_not_le hwide, Bool.eq_false_of_not_eq_true hwaits, (Host.Outcome.next.inj h).symm⟩

end Refusable

/-- An operation that answers a state touches the parts it may write, and no other (R76). -/
theorem exec_touches {i : Instr} {s t : State} (h : exec i s = .next t) : Touches (written i) s t := by
  cases i with
  | tcvAccOk p => exact of_next h (successReport_touches false p s)
  | tcvAccFail p => exact of_next h (failureReport_touches _ p s)
  | tcvExeOk p => exact of_next h (successReport_touches true p s)
  | tcvExeFail p => exact of_next h (failureReport_touches 8 p s)
  | hk10 p | hk12 p | hk25 p | hk26 p => exact of_next h (forwardEnvelope_touches .hk p s)
  | evt1 p => exact of_next h (emitLog_touches _ s)
  | evt2 p => exact of_next h (alertingEvent_touches 2 p s)
  | evt3 p => exact of_next h (alertingEvent_touches 3 p s)
  | evt4 p => exact of_next h (alertingEvent_touches 4 p s)
  | mem6 p | mem10 p => exact of_next h (feed_forward_touches .mem p s)
  | time2 p => exact of_next h (timesync_touches p s)
  | sched4 p => exact of_next h (feed_forward_touches .sched p s)
  | fdirFwd p => exact of_next h (forwardEnvelope_touches .fdir p s)
  | fletcher16 data offset count =>
    obtain ⟨-, rfl⟩ := execFletcher16_next h
    exact emitReturn_touches _ s
  | encode hd payload =>
    obtain ⟨-, rfl⟩ := execEncode_next h
    exact emitReturn_touches _ s
  | decode B =>
    obtain ⟨p, -, rfl⟩ | ⟨-, rfl⟩ := execDecode_next h
    · exact (loadPkt_touches (by simp [written]) p s).trans (emitReturn_touches _ _)
    · exact emitReturn_touches _ s
  | verify p => exact of_next h (emitReturn_touches _ s)
  | rx B => exact of_next h (runRx_touches B s)
  | tc sender dest svc sub subCounter n appData =>
    obtain ⟨-, rfl⟩ := execTc_next h
    exact emitLinkTx_touches _ s
  | ltSet d hr m sec =>
    have hset := setLt_touches (P := written (.ltSet d hr m sec)) (by simp [written]) (truncTime s.cfg.ltWidths d hr m sec) s
    exact of_next h (hset.trans ((broadcastWrite_touches _).mono (by simp [written])))
  | bcast =>
    refine of_next h ?_
    split
    · exact emitBcastAll_touches s
    · exact .refl _ s
  | await sv timeout op =>
    obtain ⟨-, -, -, rfl⟩ := execAwait_next h
    exact runAwait_touches sv timeout op s
  | tick => exact of_next h (foldl_touches tickCell_touches s.cfg.services s)
  | seqCont k c frag src => exact of_next h (runSeqCont_touches k c frag src s)
  | seqFirst k c frag src => exact of_next h (runSeqFirst_touches k c frag src s)
  | seqLast k c frag src => exact of_next h (runSeqLast_touches k c frag src s)
  | seqStandalone k c frag src => exact of_next h (runSeqStandalone_touches k c frag src s)

/-! Who writes what -/

theorem frame_notMem_written {i : Instr} (hrx : ∀ B, i ≠ .rx B) : .frame ∉ written i := by
  cases i with
  | rx B => exact absurd rfl (hrx B)
  | _ => simp [written]

theorem pkt_notMem_written {i : Instr} (hrx : ∀ B, i ≠ .rx B) (hdecode : ∀ B, i ≠ .decode B) : .pkt ∉ written i := by
  cases i with
  | rx B => exact absurd rfl (hrx B)
  | decode B => exact absurd rfl (hdecode B)
  | _ => simp [written]

theorem prevLt_notMem_written {i : Instr} (hrx : ∀ B, i ≠ .rx B) (htime : ∀ p, i ≠ .time2 p) :
    .prevLt ∉ written i := by
  cases i with
  | rx B => exact absurd rfl (hrx B)
  | time2 p => exact absurd rfl (htime p)
  | _ => simp [written]

theorem lt_notMem_written {i : Instr} (hrx : ∀ B, i ≠ .rx B) (htime : ∀ p, i ≠ .time2 p)
    (hset : ∀ d hr m sec, i ≠ .ltSet d hr m sec) : .lt ∉ written i := by
  cases i with
  | rx B => exact absurd rfl (hrx B)
  | time2 p => exact absurd rfl (htime p)
  | ltSet d hr m sec => exact absurd rfl (hset d hr m sec)
  | _ => simp [written]

theorem rs_notMem_written {i : Instr} (hrx : ∀ B, i ≠ .rx B) (h6 : ∀ p, i ≠ .mem6 p) (h10 : ∀ p, i ≠ .mem10 p)
    (h4 : ∀ p, i ≠ .sched4 p) (hfirst : ∀ k c f p, i ≠ .seqFirst k c f p)
    (hstandalone : ∀ k c f p, i ≠ .seqStandalone k c f p) (hcont : ∀ k c f p, i ≠ .seqCont k c f p)
    (hlast : ∀ k c f p, i ≠ .seqLast k c f p) : .rs ∉ written i := by
  cases i with
  | rx B => exact absurd rfl (hrx B)
  | mem6 p => exact absurd rfl (h6 p)
  | mem10 p => exact absurd rfl (h10 p)
  | sched4 p => exact absurd rfl (h4 p)
  | seqFirst k c f p => exact absurd rfl (hfirst k c f p)
  | seqStandalone k c f p => exact absurd rfl (hstandalone k c f p)
  | seqCont k c f p => exact absurd rfl (hcont k c f p)
  | seqLast k c f p => exact absurd rfl (hlast k c f p)
  | _ => simp [written]

/-! `PREV_LT` -/

/-- `PREV_LT` and `PREV_VALID` are left alone, or `PREV_LT` is loaded with the `LT` of before (R29). -/
def RetainsLt (s t : State) : Prop :=
  t.prevLt = s.prevLt ∧ t.prevValid = s.prevValid ∨ t.prevLt = s.lt ∧ t.prevValid = true

theorem timesync_retainsLt (p : Packet) (s : State) : RetainsLt s (timesync p s) := by
  unfold timesync
  split
  · obtain ⟨b, hb, -⟩ := raiseError_desync_spec p s
    exact .inr (by simp [hb])
  · exact .inl ⟨rfl, rfl⟩

theorem DispatchEffect.retainsLt {p : Packet} {s t : State} (h : DispatchEffect p s t) : RetainsLt s t := by
  cases h with
  | nothing => exact .inl ⟨rfl, rfl⟩
  | report completion => exact .inl ((successReport_touches completion p s).prevLt (by simp))
  | failure n => exact .inl ((failureReport_touches n p s).prevLt (by simp))
  | log e => exact .inl ⟨rfl, rfl⟩
  | alert n => exact .inl ((alertingEvent_touches n p s).prevLt (by simp))
  | forward c => exact .inl ⟨rfl, rfl⟩
  | feed c => exact .inl ((feed_forward_touches c p s).prevLt (by simp))
  | time => exact timesync_retainsLt p s

/-- `LT` and `PREV_LT` are as before when `RX` comes to the dispatch, so what the dispatch retains is the `LT` of before. -/
theorem runRx_retainsLt (B : Bytes) (s : State) : RetainsLt s (runRx B s) := by
  cases hd : decodeFrame s.cfg B with
  | none => exact runRx_of_decodeFrame_none hd ▸ .inl ⟨rfl, rfl⟩
  | some p =>
    rw [runRx_of_decodeFrame hd]
    cases verifyPacket s.cfg p with
    | reject reason => exact .inl ⟨rfl, rfl⟩
    | ok => exact (dispatch_effect p (emitLog .verifyOk (loadPkt p (loadFrame B (emitArchive B s))))).retainsLt

theorem exec_retainsLt {i : Instr} {s t : State} (h : exec i s = .next t) : RetainsLt s t := by
  have hkept (hrx : ∀ B, i ≠ .rx B) (htime : ∀ p, i ≠ .time2 p) : RetainsLt s t :=
    .inl ((exec_touches h).prevLt (prevLt_notMem_written hrx htime))
  cases i with
  | rx B => exact of_next h (runRx_retainsLt B s)
  | time2 p => exact of_next h (timesync_retainsLt p s)
  | _ => exact hkept nofun nofun

/-! ### The statements about the writers of the state -/

/-- Settles O48: the configuration, the schedule and the boot bit are outside every operation's frame. -/
theorem operationsKeepTheConfiguration : Obligations.OperationsKeepTheConfiguration := fun _ _ _ h =>
  ⟨(exec_touches h).cfg, (exec_touches h).inbox, (exec_touches h).booted⟩

/-- Settles O53: every operation's frame lets the ports grow only. -/
theorem outputPortsOnlyGrow : Obligations.OutputPortsOnlyGrow := fun _ _ _ h => (exec_touches h).ports

/-- Settles O50: the frames name the writers of `LT` and `PREV_LT`, and an adoption retains the old `LT`. -/
theorem localTimeHasItsWriters : Obligations.LocalTimeHasItsWriters := by
  intro i s t h
  have ht := exec_touches h
  refine ⟨fun hrx htime => ?_, ht.stillValid, fun hchange => ?_⟩
  · obtain ⟨hprev, hvalid⟩ := ht.prevLt (prevLt_notMem_written hrx htime)
    exact ⟨hprev, hvalid, fun hset => ht.lt (lt_notMem_written hrx htime hset)⟩
  · obtain ⟨hprev, hvalid⟩ | hretained := exec_retainsLt h
    · exact absurd hchange (by simp [hprev, hvalid])
    · exact hretained

/-- Settles O51: the frames name the writers of the buffers, and `RX` latches the bytes it is given before it routes them. -/
theorem buffersHaveTheirWriters : Obligations.BuffersHaveTheirWriters := by
  intro i s t n h
  have ht := exec_touches h
  refine ⟨fun hrx => ?_, ?_, fun hrx hdecode => ?_, fun hrx h6 h10 h4 hfirst hstandalone hcont hlast => ?_⟩
  · have hframe := ht.frame (frame_notMem_written hrx)
    simp [readByte, spaceBytes, State.spaces, hframe]
  · rintro B rfl hB
    have hframe := runRx_frame s hB
    simp [readByte, spaceBytes, State.spaces, ← Host.Outcome.next.inj h, hframe]
  · have hpkt := ht.pkt (pkt_notMem_written hrx hdecode)
    simp [readByte, spaceBytes, State.spaces, hpkt]
  · have hrs := ht.rs (rs_notMem_written hrx h6 h10 h4 hfirst hstandalone hcont hlast)
    simp [readByte, spaceBytes, State.spaces, hrs]

end Sys2Proof.Machine

/-! ### The invariant of registers, buffers, cells and banks -/

namespace Sys2Proof.Machine

/-- A gate cell beside its verification entry: steady (R243, R245), its counters within their width (R35). -/
structure CellOk (c : Config) (g : GateCell) (v : TcvState) : Prop where
  unsatisfied : g.waiting = true → (v.acceptReceived && (!g.twoPhase || v.executeReceived)) = false
  running : g.waiting = true → g.elapsed < g.timeout
  timeout : g.timeout < 2 ^ c.timerWidth
  elapsed : g.elapsed < 2 ^ c.timerWidth

/-- A session holds at most one fragment per count from its first to its last (R34). -/
structure SessionOk (c : Config) (r : ReasmState) : Prop where
  counts : r.sequenceOffset.toNat ≤ r.lastSequenceCount.toNat
  bound : r.buffer.length ≤ (r.lastSequenceCount.toNat - r.sequenceOffset.toNat + 1) * c.fragSlice.length

/-- The invariant, one field for each part of the state: what `GateInv`, `BankInv`, `BufferInv`, `WidthInv` and `BufferSizes`
say under an admissible configuration (`steady_iff`). -/
structure Steady (s : State) : Prop where
  cfg : s.cfg.wf = true
  cells : ∀ sv, CellOk s.cfg (s.gate.get sv) (s.tcv.get sv)
  tcvBank : s.tcv.services = s.cfg.services
  gateBank : s.gate.services = s.cfg.services
  resultBank : s.out.result.services = s.cfg.services
  bcastBank : s.out.bcast.services = s.cfg.services
  sessions : ∀ k, SessionOk s.cfg (s.rs.get k)
  stamp : s.pkt.ts.fits s.cfg.tsWidths = true
  lt : s.lt.fits s.cfg.ltWidths = true
  prevLt : s.prevLt.fits s.cfg.ltWidths = true
  frame : s.frame.length = 152
  payload : s.pkt.payload.length = 137

theorem steady_iff {s : State} :
    Steady s ↔ s.cfg.wf = true ∧ GateInv s ∧ BankInv s ∧ BufferInv s ∧ WidthInv s ∧ BufferSizes s := by
  constructor
  · intro h
    exact ⟨h.cfg, fun sv hw => ⟨(h.cells sv).unsatisfied hw, (h.cells sv).running hw⟩,
      ⟨h.tcvBank, h.gateBank, h.resultBank, h.bcastBank⟩, fun k => ⟨(h.sessions k).counts, (h.sessions k).bound⟩,
      ⟨h.stamp, h.lt, h.prevLt, fun sv => ⟨(h.cells sv).timeout, (h.cells sv).elapsed⟩⟩, h.frame, h.payload⟩
  · rintro ⟨hc, hg, ⟨hb1, hb2, hb3, hb4⟩, hr, ⟨hts, hlt, hprev, hw⟩, hf, hp⟩
    exact ⟨hc, fun sv => ⟨fun h => (hg sv h).1, fun h => (hg sv h).2, (hw sv).1, (hw sv).2⟩, hb1, hb2, hb3, hb4,
      fun k => ⟨(hr k).1, (hr k).2⟩, hts, hlt, hprev, hf, hp⟩

/-! What an admissible configuration gives (R303) -/

theorem tsWidths_sum_of_wf {c : Config} (h : c.wf = true) : c.tsWidths.sum = 16 := by
  simp only [Config.wf, Bool.and_eq_true, beq_iff_eq] at h
  obtain ⟨⟨⟨⟨-, hsum⟩, -⟩, -⟩, -⟩ := h
  exact hsum

theorem mem_services_of_serviceOfApid {c : Config} (h : c.wf = true) {a : Byte} {sv : Service}
    (hsv : serviceOfApid c a = some sv) : sv ∈ c.services := by
  simp only [Config.wf, Bool.and_eq_true, List.all_eq_true, List.contains_iff_mem] at h
  obtain ⟨⟨-, hrows⟩, -⟩ := h
  obtain ⟨r, hr, rfl⟩ := Option.map_eq_some_iff.mp hsv
  exact hrows r (List.mem_of_find?_eq_some hr)

/-! Registers that fit -/

theorem truncTime_fits (w : TimeWidths) (d hr m sec : Nat) : (truncTime w d hr m sec).fits w = true := by
  simp [Time.fits, truncTime, Nat.mod_lt]

theorem adoptedTime_fits (w : TimeWidths) (t : Time) : (adoptedTime w t).fits w = true := by
  simp [Time.fits, adoptedTime, fitTime_lt]

theorem zeroTime_fits (w : TimeWidths) : Time.fits w ⟨0, 0, 0, 0⟩ = true := by
  simp [Time.fits]

theorem packetOfFrame_fits {c : Config} (h : c.wf = true) (F : Bytes) : (packetOfFrame c F).ts.fits c.tsWidths = true :=
  unpackTime_fits _ _ (tsWidths_sum_of_wf h) (BitVec.isLt _)

theorem length_packetOfFrame_payload (c : Config) (F : Bytes) : (packetOfFrame c F).payload.length = 137 :=
  length_firstBytes _ _

/-! Cells and sessions -/

/-- One `TICK` more is within the width of a running cell, whose timeout is. -/
theorem CellOk.succ_elapsed_lt {c : Config} {g : GateCell} {v : TcvState} (h : CellOk c g v) (hw : g.waiting = true) :
    g.elapsed + 1 < 2 ^ c.timerWidth :=
  Nat.lt_of_le_of_lt (h.running hw) h.timeout

theorem armedCell_ok (c : Config) {timeout : Nat} (h : timeout < 2 ^ c.timerWidth) (op : Byte) (v : TcvState) :
    CellOk c (armedCell c timeout op) v where
  unsatisfied := nofun
  running := nofun
  timeout := h
  elapsed := Nat.two_pow_pos _

/-- The discarded session of R226 and R227. -/
theorem SessionOk.discarded (c : Config) (r : ReasmState) :
    SessionOk c { r with phase := .idle, lastSequenceCount := 0, sequenceOffset := 0, buffer := [] } :=
  ⟨Nat.le_refl _, Nat.zero_le _⟩

/-- A session opened by one fragment, R222 and R223. -/
theorem SessionOk.opened {c : Config} {frag : Bytes} (hf : frag.length = c.fragSlice.length) (n : Byte) (ph : Phase)
    (r : ReasmState) : SessionOk c (opened n frag ph r) :=
  ⟨Nat.le_refl _, by simp [Machine.opened, hf]⟩

/-- A further fragment comes with a greater count, so there is room for it, R224, R225 and R228. -/
theorem SessionOk.extended {c : Config} {r : ReasmState} (h : SessionOk c r) {frag : Bytes}
    (hf : frag.length = c.fragSlice.length) {n : Byte} (hn : mayContinue r n = true) (ph : Phase) :
    SessionOk c (extended n frag ph r) := by
  have hlt : r.lastSequenceCount.toNat < n.toNat := by
    simp only [mayContinue, Bool.and_eq_true, decide_eq_true_eq] at hn
    exact hn.2
  have hle := h.counts
  refine ⟨hle.trans hlt.le, ?_⟩
  calc (r.buffer ++ frag).length
      = r.buffer.length + c.fragSlice.length := by rw [List.length_append, hf]
    _ ≤ (r.lastSequenceCount.toNat - r.sequenceOffset.toNat + 1) * c.fragSlice.length + c.fragSlice.length :=
        Nat.add_le_add_right h.bound _
    _ = (r.lastSequenceCount.toNat - r.sequenceOffset.toNat + 1 + 1) * c.fragSlice.length := (Nat.succ_mul _ _).symm
    _ ≤ (n.toNat - r.sequenceOffset.toNat + 1) * c.fragSlice.length := Nat.mul_le_mul_right _ (by omega)

/-! The writes of the state -/

section Primitives

variable {s : State} (hs : Steady s)
include hs

theorem emitArchive_steady (b : Bytes) : Steady (emitArchive b s) := { hs with }

theorem emitLog_steady (e : LogEvent) : Steady (emitLog e s) := { hs with }

theorem emitFwd_steady (c : Consumer) (E : Bytes) : Steady (emitFwd c E s) := { hs with }

theorem emitLinkTx_steady (Fs : List Bytes) : Steady (emitLinkTx Fs s) := { hs with }

theorem emitSink_steady (k : Reasm) (b : Bytes) : Steady (emitSink k b s) := { hs with }

theorem emitReturn_steady (v : ReturnValue) : Steady (emitReturn v s) := { hs with }

theorem emitResult_steady {sv : Service} (hsv : sv ∈ s.cfg.services) (r : GateResult) :
    Steady (emitResult sv r s) :=
  { hs with resultBank := (PerService.services_set _ (hs.resultBank ▸ hsv)).trans hs.resultBank }

theorem emitBcast_steady {sv : Service} (hsv : sv ∈ s.cfg.services) (t : Time) : Steady (emitBcast t s sv) :=
  { hs with bcastBank := (PerService.services_set _ (hs.bcastBank ▸ hsv)).trans hs.bcastBank }

theorem loadFrame_steady {B : Bytes} (hB : B.length = 152) : Steady (loadFrame B s) :=
  { hs with frame := hB }

/-- A decoded packet fits the registers, R22, R23 and R135. -/
theorem loadPkt_steady {B : Bytes} {p : Packet} (hp : decodeFrame s.cfg B = some p) : Steady (loadPkt p s) := by
  obtain ⟨-, rfl⟩ := decodeFrame_some hp
  exact { hs with stamp := packetOfFrame_fits hs.cfg B, payload := length_packetOfFrame_payload _ B }

theorem setLt_steady {t : Time} (ht : t.fits s.cfg.ltWidths = true) : Steady (setLt t s) :=
  { hs with lt := ht }

theorem retainLt_steady : Steady (retainLt s) := { hs with prevLt := hs.lt }

theorem setRs_steady {k : Reasm} {r : ReasmState} (hr : SessionOk s.cfg r) : Steady (setRs k r s) :=
  { hs with
    sessions := fun j => by
      rw [setRs_rs, PerReasm.get_set]
      split
      · exact hr
      · exact hs.sessions j }

theorem setGate_steady {sv : Service} (hsv : sv ∈ s.cfg.services) {g : GateCell} (hg : CellOk s.cfg g (s.tcv.get sv)) :
    Steady (setGate sv g s) :=
  { hs with
    cells := fun sv' => by
      rw [setGate_gate, PerService.get_set]
      split
      · subst sv'
        exact hg
      · exact hs.cells sv'
    gateBank := (PerService.services_set _ (hs.gateBank ▸ hsv)).trans hs.gateBank }

theorem setTcv_steady {sv : Service} (hsv : sv ∈ s.cfg.services) {v : TcvState} (hv : CellOk s.cfg (s.gate.get sv) v) :
    Steady (setTcv sv v s) :=
  { hs with
    cells := fun sv' => by
      rw [setTcv_tcv, PerService.get_set]
      split
      · subst sv'
        exact hv
      · exact hs.cells sv'
    tcvBank := (PerService.services_set _ (hs.tcvBank ▸ hsv)).trans hs.tcvBank }

/-- An entry without flags satisfies no cell, so clearing the flags keeps the invariant. -/
theorem clearFlags_steady {sv : Service} (hsv : sv ∈ s.cfg.services) (v : TcvState) :
    Steady (setTcv sv { v with acceptReceived := false, executeReceived := false } s) :=
  setTcv_steady hs hsv { hs.cells sv with unsatisfied := fun _ => rfl }

/-- A cell put at rest keeps the invariant when its counters are within their width. -/
theorem stopCell_steady {sv : Service} (hsv : sv ∈ s.cfg.services) {g : GateCell} (ht : g.timeout < 2 ^ s.cfg.timerWidth)
    (he : g.elapsed < 2 ^ s.cfg.timerWidth) : Steady (setGate sv { g with waiting := false } s) :=
  setGate_steady hs hsv ⟨nofun, nofun, ht, he⟩

end Primitives

/-! The shared operations -/

@[simp] theorem setTcv_setTcv (sv : Service) (v w : TcvState) (s : State) :
    setTcv sv w (setTcv sv v s) = setTcv sv w s := by
  simp [setTcv]

@[simp] theorem setGate_setGate (sv : Service) (g h : GateCell) (s : State) :
    setGate sv h (setGate sv g s) = setGate sv h s := by
  simp [setGate]

/-- The success of R244 keeps the invariant, when it holds with the flags cleared. -/
theorem gateSuccess_steady {s : State} {sv : Service}
    (hs : Steady (setTcv sv { s.tcv.get sv with acceptReceived := false, executeReceived := false } s))
    (hsv : sv ∈ s.cfg.services) : Steady (gateSuccess sv s) := by
  have hstopped := stopCell_steady hs hsv (hs.cells sv).timeout (hs.cells sv).elapsed
  exact emitResult_steady (emitLog_steady hstopped _) hsv .ok

/-- The timeout of R246 keeps the invariant, when it holds with the cell at rest. -/
theorem gateTimedOut_steady {s : State} {sv : Service} (hs : Steady (setGate sv { s.gate.get sv with waiting := false } s))
    (hsv : sv ∈ s.cfg.services) : Steady (gateTimedOut sv s) :=
  emitResult_steady (emitFwd_steady (emitLog_steady hs _) .fdir _) hsv .fail

/-- A packet's fragment has as many bytes as the slice, R221. -/
theorem length_fragment (c : Config) (p : Packet) : (fragment c p).length = c.fragSlice.length := List.length_map _

section Shared

variable {s : State} (hs : Steady s)
include hs

/-- A report to an entry keeps the invariant: a cell that it satisfies does not wait any more after the signal (R243). -/
theorem signal_setTcv_steady {sv : Service} (hsv : sv ∈ s.cfg.services) (v : TcvState) :
    Steady (signal sv (setTcv sv v s)) := by
  obtain ⟨-, -, h⟩ | ⟨hn, h⟩ := signal_cases sv (setTcv sv v s)
  · rw [h]
    exact gateSuccess_steady (by simpa using clearFlags_steady hs hsv v) hsv
  · rw [h]
    refine setTcv_steady hs hsv { hs.cells sv with unsatisfied := fun hw => ?_ }
    simpa [satisfied, hw] using hn

theorem successReport_steady (completion : Bool) (p : Packet) : Steady (successReport completion p s) := by
  unfold successReport
  split
  · exact emitLog_steady hs _
  · rename_i sv hsv
    exact signal_setTcv_steady hs (mem_services_of_serviceOfApid hs.cfg hsv) _

/-- A list of services, each handled by an operation that keeps the invariant and the configuration. -/
theorem foldl_steady {f : State → Service → State} (hcfg : ∀ s sv, (f s sv).cfg = s.cfg)
    (hf : ∀ s sv, Steady s → sv ∈ s.cfg.services → Steady (f s sv)) (l : List Service)
    (hl : ∀ sv ∈ l, sv ∈ s.cfg.services) : Steady (l.foldl f s) := by
  induction l generalizing s with
  | nil => exact hs
  | cons a l ih =>
    refine ih (hf s a hs (hl a List.mem_cons_self)) fun sv hsv => ?_
    rw [hcfg]
    exact hl sv (List.mem_cons_of_mem a hsv)

theorem emitBcastAll_steady : Steady (emitBcastAll s) :=
  foldl_steady (f := emitBcast s.lt) hs (fun _ _ => rfl) (fun _ _ hs hsv => emitBcast_steady hs hsv s.lt) _
    fun _ hsv => hsv

theorem broadcastWrite_steady : Steady (broadcastWrite s) := by
  unfold broadcastWrite
  split
  · exact emitBcastAll_steady hs
  · exact hs

theorem timesync_steady (p : Packet) : Steady (timesync p s) := by
  unfold timesync
  split
  · have hadopted := setLt_steady (retainLt_steady hs) (adoptedTime_fits s.cfg.ltWidths p.ts)
    exact broadcastWrite_steady (emitFwd_steady hadopted .fdir _)
  · exact hs

theorem violation_steady (k : Reasm) (src : Packet) : Steady (violation k src s) :=
  emitFwd_steady (setRs_steady hs (SessionOk.discarded _ _)) .fdir _

theorem flush_steady (k : Reasm) : Steady (flush k s) :=
  setRs_steady (emitSink_steady hs k _) (SessionOk.discarded _ _)

section Fragments

variable {frag : Bytes} (hf : frag.length = s.cfg.fragSlice.length) (k : Reasm) (n : Byte) (src : Packet)
include hf

theorem runSeqFirst_steady : Steady (runSeqFirst k n frag src s) := by
  unfold runSeqFirst
  split
  · exact setRs_steady hs (SessionOk.opened hf _ _ _)
  · exact violation_steady hs k src

theorem runSeqStandalone_steady : Steady (runSeqStandalone k n frag src s) := by
  unfold runSeqStandalone
  split
  · exact flush_steady (setRs_steady hs (SessionOk.opened hf _ _ _)) k
  · exact violation_steady hs k src

theorem runSeqCont_steady : Steady (runSeqCont k n frag src s) := by
  unfold runSeqCont
  split
  · rename_i hn
    exact setRs_steady hs ((hs.sessions k).extended hf hn _)
  · exact violation_steady hs k src

theorem runSeqLast_steady : Steady (runSeqLast k n frag src s) := by
  unfold runSeqLast
  split
  · rename_i hn
    exact flush_steady (setRs_steady hs ((hs.sessions k).extended hf hn _)) k
  · exact violation_steady hs k src

end Fragments

theorem feedReasm_steady (k : Reasm) (p : Packet) : Steady (feedReasm k p s) := by
  have hf := length_fragment s.cfg p
  unfold feedReasm
  split
  · exact runSeqCont_steady hs hf k _ p
  · exact runSeqFirst_steady hs hf k _ p
  · exact runSeqLast_steady hs hf k _ p
  · exact runSeqStandalone_steady hs hf k _ p

theorem feedByConfig_steady (p : Packet) : Steady (feedByConfig p s) := by
  unfold feedByConfig
  split
  · exact feedReasm_steady hs _ p
  · exact hs

theorem DispatchEffect.steady {p : Packet} {t : State} (h : DispatchEffect p s t) : Steady t := by
  cases h with
  | nothing => exact hs
  | report completion => exact successReport_steady hs completion p
  | failure n => exact emitFwd_steady (emitLog_steady hs _) .fdir _
  | log e => exact emitLog_steady hs e
  | alert n => exact emitFwd_steady (emitLog_steady hs _) .fdir _
  | forward c => exact emitFwd_steady hs c _
  | feed c => exact feedByConfig_steady (emitFwd_steady hs c _) p
  | time => exact timesync_steady hs p

end Shared

/-! The operations that an agent may request -/

section Requested

variable {s : State} (hs : Steady s)
include hs

theorem runRx_steady (B : Bytes) : Steady (runRx B s) := by
  have harchive := emitArchive_steady hs B
  cases hd : decodeFrame s.cfg B with
  | none => exact runRx_of_decodeFrame_none hd ▸ emitLog_steady harchive _
  | some p =>
    have hloaded := loadPkt_steady (loadFrame_steady harchive (decodeFrame_some hd).1) hd
    rw [runRx_of_decodeFrame hd]
    cases verifyPacket s.cfg p with
    | reject reason => exact emitLog_steady hloaded _
    | ok => exact (dispatch_effect p _).steady (emitLog_steady hloaded _)

theorem runAwait_steady {sv : Service} (hsv : sv ∈ s.cfg.services) {timeout : Nat} (ht : timeout < 2 ^ s.cfg.timerWidth)
    (op : Byte) : Steady (runAwait sv timeout op s) := by
  have harmed := setGate_steady hs hsv (armedCell_ok s.cfg ht op _)
  have hcell := harmed.cells sv
  dsimp only [runAwait]
  split_ifs with hsat hzero
  · exact gateSuccess_steady (clearFlags_steady harmed hsv _) hsv
  · exact gateTimedOut_steady (stopCell_steady harmed hsv hcell.timeout hcell.elapsed) hsv
  · refine setGate_steady harmed hsv
      { hcell with unsatisfied := fun _ => Bool.eq_false_of_not_eq_true hsat, running := fun _ => ?_ }
    simpa [armedCell] using Nat.pos_of_ne_zero hzero

/-- A cell's part of a `TICK`, R245: a waiting cell counts up to its timeout, which is within the width, and is put at rest
when it gets there. -/
theorem tickCell_steady {sv : Service} (hsv : sv ∈ s.cfg.services) : Steady (tickCell s sv) := by
  have hcell := hs.cells sv
  dsimp only [tickCell]
  split_ifs with hw hout
  · have hstopped := stopCell_steady (g := { s.gate.get sv with elapsed := (s.gate.get sv).elapsed + 1 }) hs hsv
      hcell.timeout (hcell.succ_elapsed_lt hw)
    exact gateTimedOut_steady (by simpa using hstopped) hsv
  · exact setGate_steady hs hsv
      { hcell with running := fun _ => Nat.lt_of_not_le hout, elapsed := hcell.succ_elapsed_lt hw }
  · exact hs

/-- Every operation that an agent may request keeps the invariant (R279). -/
theorem exec_steady {t : State} {i : Instr} {a : Agent} (hp : permits s.cfg a i = true) (h : exec i s = .next t) :
    Steady t := by
  cases i with
  | fletcher16 data offset count =>
    obtain ⟨-, rfl⟩ := execFletcher16_next h
    exact emitReturn_steady hs _
  | encode hd payload =>
    obtain ⟨-, rfl⟩ := execEncode_next h
    exact emitReturn_steady hs _
  | decode B =>
    obtain ⟨p, hd, rfl⟩ | ⟨-, rfl⟩ := execDecode_next h
    · exact emitReturn_steady (loadPkt_steady hs hd) _
    · exact emitReturn_steady hs _
  | verify p => exact of_next h (emitReturn_steady hs _)
  | rx B => exact of_next h (runRx_steady hs B)
  | tc sender dest svc sub subCounter n appData =>
    obtain ⟨-, rfl⟩ := execTc_next h
    exact emitLinkTx_steady hs _
  | ltSet d hr m sec => exact of_next h (broadcastWrite_steady (setLt_steady hs (truncTime_fits _ d hr m sec)))
  | bcast =>
    refine of_next h ?_
    split
    · exact emitBcastAll_steady hs
    · exact hs
  | await sv timeout op =>
    obtain ⟨hsv, hfits, -, rfl⟩ := execAwait_next h
    exact runAwait_steady hs hsv hfits op
  | tick =>
    have hcfg (s : State) (sv : Service) : (tickCell s sv).cfg = s.cfg := (tickCell_touches s sv).cfg
    exact of_next h (foldl_steady hs hcfg (fun _ _ hs hsv => tickCell_steady hs hsv) _ fun _ hsv => hsv)
  | _ => exact absurd hp (by simp [permits])

end Requested

/-! The reset and the configuration load -/

theorem resetWith_steady {c : Config} (h : c.wf = true) : Steady (State.resetWith c) where
  cfg := h
  cells sv := by
    simp only [State.resetWith, PerService.get_fresh_tcv, PerService.get_fresh_gate]
    exact ⟨nofun, nofun, Nat.two_pow_pos _, Nat.two_pow_pos _⟩
  tcvBank := PerService.services_fresh _ _
  gateBank := PerService.services_fresh _ _
  resultBank := PerService.services_fresh _ _
  bcastBank := PerService.services_fresh _ _
  sessions k := by cases k <;> exact ⟨Nat.le_refl _, Nat.zero_le _⟩
  stamp := zeroTime_fits _
  lt := zeroTime_fits _
  prevLt := zeroTime_fits _
  frame := List.length_replicate
  payload := List.length_replicate

/-- The schedule and the boot bit are outside the invariant. -/
theorem schedule_steady {s : State} (hs : Steady s) (rest : List InputEvent) (b : Bool) :
    Steady { s with inbox := rest, booted := b } := { hs with }

/-- Installing a configuration in a reset state gives the reset state under that configuration, which is then fixed. -/
theorem installConfig_resetWith (c c' : Config) (rest : List InputEvent) :
    installConfig c' { State.resetWith c with inbox := rest } =
      { State.resetWith c' with inbox := rest, booted := true } := rfl

/-- Every step keeps the invariant; a configuration load needs that the state is at its reset values until then (R303). -/
theorem step_steady {s t : State} (hboot : BootInv s) (hs : Steady s) (h : step s = .next t) : Steady t := by
  obtain ⟨-, rfl⟩ | ⟨r, rest, i, -, -, hp, hx⟩ | ⟨rest, -, rfl⟩ | ⟨c, rest, -, hb, hc, rfl⟩ := step_cases h
  · exact hs
  · exact exec_steady (schedule_steady hs rest true) hp hx
  · exact schedule_steady (resetWith_steady hs.cfg) rest false
  · have hreset : { s with inbox := rest } = { State.resetWith s.cfg with inbox := rest } := by rw [hboot.2 hb]; rfl
    rw [hreset, installConfig_resetWith]
    exact schedule_steady (resetWith_steady hc) rest true

/-- Every step keeps the boot invariant: a request and a load set the boot bit, the reset gives the reset state. -/
theorem step_bootInv {s t : State} (hboot : BootInv s) (h : step s = .next t) : BootInv t := by
  obtain ⟨-, rfl⟩ | ⟨r, rest, i, -, -, -, hx⟩ | ⟨rest, -, rfl⟩ | ⟨c, rest, -, -, hc, rfl⟩ := step_cases h
  · exact hboot
  · have ht := exec_touches hx
    exact ⟨ht.cfg ▸ hboot.1, fun hb => absurd (ht.booted.symm.trans hb) (by simp [taken])⟩
  · exact ⟨hboot.1, fun _ => rfl⟩
  · exact ⟨hc, nofun⟩

/-- Settles O56: the five invariants and the admissible configuration are one invariant, `Steady`, that every step keeps. -/
theorem stepKeepsWidthsAndSizes : Obligations.StepKeepsWidthsAndSizes := by
  intro s t hboot hgate hbank hbuffer hwidth hsize h
  have ht := step_steady hboot (steady_iff.mpr ⟨hboot.1, hgate, hbank, hbuffer, hwidth, hsize⟩) h
  exact ⟨step_bootInv hboot h, (steady_iff.mp ht).2⟩

/-! The state after reset -/

/-- The configuration at reset is admissible: the rows of P5 that name no default service are left out (log 1). -/
theorem bootConfig_wf : bootConfig.wf = true := by
  have hrows : openApidRows.all (fun r => defaultServices.contains r.service) = true := by
    simp [openApidRows]
  have hlayout : defaultLayout.wf = true := by decide
  simp only [Config.wf, bootConfig, hrows, hlayout, Bool.and_eq_true]
  decide

theorem reset_reasmInv : ReasmInv State.reset := by
  intro k
  cases k <;> exact ⟨nofun, fun _ => ⟨rfl, rfl, rfl⟩, nofun, rfl⟩

theorem reset_portInv : PortInv State.reset :=
  ⟨fun c E hE => by cases c <;> exact absurd hE List.not_mem_nil, nofun⟩

/-- Settles O58: the reset state under an admissible configuration is steady, its sessions are idle and its ports empty. -/
theorem resetMeetsTheInvariants : Obligations.ResetMeetsTheInvariants := by
  obtain ⟨hc, hgate, hbank, hbuffer, hwidth, hsize⟩ := steady_iff.mp (resetWith_steady bootConfig_wf)
  exact ⟨⟨hc, fun _ => rfl⟩, hgate, hbank, reset_reasmInv, hbuffer, hwidth, hsize, reset_portInv⟩

end Sys2Proof.Machine

/-! ### The checksum bytes (R62, R132) -/

namespace Sys2Proof.Machine

/-- Both accumulators stay below 255, whatever the bytes are (R131, R132). -/
theorem foldl_fletcherStep_lt (b : Bytes) {acc : Nat × Nat} (h : acc.1 < 255 ∧ acc.2 < 255) :
    (b.foldl fletcherStep acc).1 < 255 ∧ (b.foldl fletcherStep acc).2 < 255 := by
  induction b generalizing acc with
  | nil => exact h
  | cons x b ih => exact ih ⟨Nat.mod_lt _ (by decide), Nat.mod_lt _ (by decide)⟩

theorem ofNat_ne_255 {n : Nat} (h : n < 255) : BitVec.ofNat 8 n ≠ 255 := fun he => by
  have hn := congrArg BitVec.toNat he
  rw [BitVec.toNat_ofNat, Nat.mod_eq_of_lt (by omega)] at hn
  exact h.ne hn

/-- Neither byte of a computed checksum is 255 (R132). -/
theorem fletcher16_bytes_ne_255 (data : Bytes) (offset count : Nat) :
    hiByte (fletcher16 data offset count) ≠ 255 ∧ loByte (fletcher16 data offset count) ≠ 255 := by
  obtain ⟨hlo, hhi⟩ := foldl_fletcherStep_lt ((data.drop offset).take count) (acc := (0, 0)) (by decide)
  exact ⟨(hiByte_word16 _ _).symm ▸ ofNat_ne_255 hhi, (loByte_word16 _ _).symm ▸ ofNat_ne_255 hlo⟩

/-- The received checksum is made of bytes 0 and 1 of the frame, in either order of P3 (R62). -/
theorem readChecksum_byte_255 (c : Config) {F : Bytes} (h : byteAt F 0 = 255 ∨ byteAt F 1 = 255) :
    hiByte (readChecksum c F) = 255 ∨ loByte (readChecksum c F) = 255 := by
  unfold readChecksum
  split <;> rw [hiByte_word16, loByte_word16]
  · exact h.symm
  · exact h

theorem readChecksum_ne_frameChecksum (c : Config) {F : Bytes} (h : byteAt F 0 = 255 ∨ byteAt F 1 = 255) :
    readChecksum c F ≠ frameChecksum F := by
  intro he
  obtain ⟨hhi, hlo⟩ := fletcher16_bytes_ne_255 F 2 150
  have hread := readChecksum_byte_255 c h
  rw [he] at hread
  exact hread.elim hhi hlo

/-- The verdict is `Ok` exactly when all seven checks pass, R150. -/
theorem verifyPacket_eq_ok {c : Config} {p : Packet} :
    verifyPacket c p = .ok ↔ check1 p = true ∧ check2 p = true ∧ check3 p = true ∧ check4 c p = true ∧
      check5 c p = true ∧ check6 c p = true ∧ check7 p = true := by
  unfold verifyPacket
  split_ifs <;> simp_all

/-- Settles O12: a computed checksum has no byte 255, so the received one differs from it and check 2 fails. -/
theorem checksumByte255IsRejected : Obligations.ChecksumByte255IsRejected := by
  intro c F p hd h
  obtain ⟨-, rfl⟩ := decodeFrame_some hd
  have hne := readChecksum_ne_frameChecksum c h
  refine ⟨hne, fun hok => ?_⟩
  obtain ⟨-, hcheck, -⟩ := verifyPacket_eq_ok.mp hok
  exact hne (beq_iff_eq.mp hcheck)

end Sys2Proof.Machine

/-! ### The verification flags (R31, R76, R244) -/

namespace Sys2Proof.Machine

/-- No flag of an entry goes from 0 to 1 and no id changes. -/
structure SetsNoFlag (v w : TcvState) : Prop where
  accept : w.acceptReceived = true → v.acceptReceived = true
  execute : w.executeReceived = true → v.executeReceived = true
  packetID : w.packetID = v.packetID
  psc : w.PSC = v.PSC

/-- A flag of an entry goes from 1 to 0. -/
def ClearsFlag (v w : TcvState) : Prop :=
  (v.acceptReceived = true ∧ w.acceptReceived = false) ∨ (v.executeReceived = true ∧ w.executeReceived = false)

/-- A flag is cleared only together with the `RESULT[s](ok)` that ends the wait, R244. -/
def ClearsOnSuccess (s t : State) : Prop :=
  ∀ sv, ClearsFlag (s.tcv.get sv) (t.tcv.get sv) →
    t.out.result.get sv = s.out.result.get sv ++ [.ok] ∧ (t.gate.get sv).waiting = false

theorem SetsNoFlag.refl (v : TcvState) : SetsNoFlag v v := ⟨id, id, rfl, rfl⟩

theorem not_clearsFlag_self (v : TcvState) : ¬ ClearsFlag v v := by
  rintro (⟨hset, hclear⟩ | ⟨hset, hclear⟩) <;> exact absurd (hset.symm.trans hclear) (by decide)

/-- A success report sets flags and clears none. -/
theorem ClearsFlag.of_reportSuccess {completion : Bool} {pid psc : Word16} {v w : TcvState} (h : ClearsFlag v w) :
    ClearsFlag (reportSuccess completion pid psc v) w := by
  obtain ⟨-, hclear⟩ | ⟨hset, hclear⟩ := h
  · exact .inl ⟨rfl, hclear⟩
  · exact .inr ⟨by simp [reportSuccess, hset], hclear⟩

section Flags

variable {s t : State}

theorem ClearsOnSuccess.of_tcv_eq (h : t.tcv = s.tcv) : ClearsOnSuccess s t := fun _ hclear =>
  absurd (h ▸ hclear) (not_clearsFlag_self _)

/-- What `success(s)` does to the entry of any service, R244. -/
theorem gateSuccess_tcv_get (sv sv' : Service) (s : State) :
    (gateSuccess sv s).tcv.get sv' =
      if sv' = sv then { s.tcv.get sv with acceptReceived := false, executeReceived := false } else s.tcv.get sv' := by
  simp [gateSuccess_eq]

theorem gateSuccess_setsNoFlag (sv sv' : Service) (s : State) :
    SetsNoFlag (s.tcv.get sv') ((gateSuccess sv s).tcv.get sv') := by
  rw [gateSuccess_tcv_get]
  split
  · subst sv'
    exact ⟨nofun, nofun, rfl, rfl⟩
  · exact .refl _

theorem gateSuccess_clearsOnSuccess (sv : Service) (s : State) : ClearsOnSuccess s (gateSuccess sv s) := by
  intro sv' hclear
  by_cases hsv : sv' = sv
  · subst sv'
    simp [gateSuccess_eq]
  · rw [gateSuccess_tcv_get, if_neg hsv] at hclear
    exact absurd hclear (not_clearsFlag_self _)

theorem signal_clearsOnSuccess (sv : Service) (s : State) : ClearsOnSuccess s (signal sv s) := by
  obtain ⟨-, -, h⟩ | ⟨-, h⟩ := signal_cases sv s
  · exact h ▸ gateSuccess_clearsOnSuccess sv s
  · exact .of_tcv_eq (congrArg State.tcv h)

theorem successReport_clearsOnSuccess (completion : Bool) (p : Packet) (s : State) :
    ClearsOnSuccess s (successReport completion p s) := by
  unfold successReport
  split
  · exact .of_tcv_eq rfl
  · rename_i sv _
    intro sv' hclear
    refine signal_clearsOnSuccess sv _ sv' ?_
    rw [setTcv_tcv, PerService.get_set]
    split
    · subst sv'
      exact hclear.of_reportSuccess
    · exact hclear

theorem DispatchEffect.clearsOnSuccess {p : Packet} (h : DispatchEffect p s t) : ClearsOnSuccess s t := by
  cases h with
  | nothing => exact .of_tcv_eq rfl
  | report completion => exact successReport_clearsOnSuccess completion p s
  | failure n => exact .of_tcv_eq rfl
  | log e => exact .of_tcv_eq rfl
  | alert n => exact .of_tcv_eq rfl
  | forward c => exact .of_tcv_eq rfl
  | feed c => exact .of_tcv_eq ((feed_forward_touches c p s).tcv (by simp))
  | time => exact .of_tcv_eq ((timesync_touches p s).tcv (by simp))

/-- The flags and the results are as before when `RX` comes to the dispatch. -/
theorem runRx_clearsOnSuccess (B : Bytes) (s : State) : ClearsOnSuccess s (runRx B s) := by
  cases hd : decodeFrame s.cfg B with
  | none => exact runRx_of_decodeFrame_none hd ▸ .of_tcv_eq rfl
  | some p =>
    rw [runRx_of_decodeFrame hd]
    cases verifyPacket s.cfg p with
    | reject reason => exact .of_tcv_eq rfl
    | ok => exact (dispatch_effect p (emitLog .verifyOk (loadPkt p (loadFrame B (emitArchive B s))))).clearsOnSuccess

/-- An accepted `AWAIT` ends in the success of the armed cell, or leaves the verification bank alone (R242, R247). -/
theorem runAwait_tcv_cases (sv : Service) (timeout : Nat) (op : Byte) (s : State) :
    runAwait sv timeout op s = gateSuccess sv (setGate sv (armedCell s.cfg timeout op) s) ∨
      (runAwait sv timeout op s).tcv = s.tcv := by
  dsimp only [runAwait]
  split_ifs
  · exact .inl rfl
  · exact .inr rfl
  · exact .inr rfl

/-- A timeout leaves the flags alone, R246. -/
theorem tickCell_tcv (s : State) (sv : Service) : (tickCell s sv).tcv = s.tcv := by
  dsimp only [tickCell]
  split_ifs <;> rfl

theorem foldl_tickCell_tcv (l : List Service) (s : State) : (l.foldl tickCell s).tcv = s.tcv := by
  induction l generalizing s with
  | nil => rfl
  | cons sv l ih => exact (ih _).trans (tickCell_tcv s sv)

theorem exec_tick_tcv (h : exec .tick s = .next t) : t.tcv = s.tcv :=
  of_next (p := fun t => t.tcv = s.tcv) h (foldl_tickCell_tcv s.cfg.services s)

theorem exec_clearsOnSuccess {i : Instr} (h : exec i s = .next t) : ClearsOnSuccess s t := by
  have htouches := exec_touches h
  cases i with
  | tcvAccOk p => exact of_next h (successReport_clearsOnSuccess false p s)
  | tcvExeOk p => exact of_next h (successReport_clearsOnSuccess true p s)
  | rx B => exact of_next h (runRx_clearsOnSuccess B s)
  | await sv timeout op =>
    obtain ⟨-, -, -, rfl⟩ := execAwait_next h
    obtain he | he := runAwait_tcv_cases sv timeout op s
    · exact he ▸ gateSuccess_clearsOnSuccess sv (setGate sv (armedCell s.cfg timeout op) s)
    · exact .of_tcv_eq he
  | tick => exact .of_tcv_eq (exec_tick_tcv h)
  | _ => exact .of_tcv_eq (htouches.tcv (by simp [written]))

theorem exec_setsNoFlag {i : Instr} (hrx : ∀ B, i ≠ .rx B) (hacc : ∀ p, i ≠ .tcvAccOk p) (hexe : ∀ p, i ≠ .tcvExeOk p)
    (h : exec i s = .next t) (sv : Service) : SetsNoFlag (s.tcv.get sv) (t.tcv.get sv) := by
  have hkept (htcv : t.tcv = s.tcv) : SetsNoFlag (s.tcv.get sv) (t.tcv.get sv) := htcv ▸ .refl _
  have htouches := exec_touches h
  cases i with
  | rx B => exact absurd rfl (hrx B)
  | tcvAccOk p => exact absurd rfl (hacc p)
  | tcvExeOk p => exact absurd rfl (hexe p)
  | await sv' timeout op =>
    obtain ⟨-, -, -, rfl⟩ := execAwait_next h
    obtain he | he := runAwait_tcv_cases sv' timeout op s
    · exact he ▸ gateSuccess_setsNoFlag sv' sv (setGate sv' (armedCell s.cfg timeout op) s)
    · exact hkept he
  | tick => exact hkept (exec_tick_tcv h)
  | _ => exact hkept (htouches.tcv (by simp [written]))

end Flags

/-- Settles O49: the reports are the only operations that set flags, and only `success(s)` clears them. -/
theorem onlyReportsSetTheFlags : Obligations.OnlyReportsSetTheFlags := by
  intro i s t sv h
  refine ⟨fun hrx hacc hexe => ?_, exec_clearsOnSuccess h sv⟩
  obtain ⟨haccept, hexecute, hid, hpsc⟩ := exec_setsNoFlag hrx hacc hexe h sv
  exact ⟨haccept, hexecute, hid, hpsc⟩

end Sys2Proof.Machine

/-! ### The lengths of what is emitted (R66, R284, R287) -/

namespace Sys2Proof.Machine

/-- Every frame of a `TC` request is an encoded frame, R202. -/
theorem length_of_mem_tcFrames {c : Config} {t : Time} {sender dest svc sub k : Byte} {n : Nat} {appData F : Bytes}
    (hF : F ∈ tcFrames c t sender dest svc sub k n appData) : F.length = 152 := by
  obtain ⟨i, -, rfl⟩ := List.mem_map.mp hF
  exact length_encodeFrame ..

section Emitted

variable {s : State} (hs : PortInv s)
include hs

theorem emitFwd_portInv {E : Bytes} (hE : E.length = 147) (c : Consumer) : PortInv (emitFwd c E s) := by
  refine ⟨fun d E' hE' => ?_, hs.2⟩
  rw [emitFwd_out_fwd, PerConsumer.get_set] at hE'
  split at hE'
  · obtain hold | rfl := List.mem_append.mp hE' |>.imp_right List.mem_singleton.mp
    · exact hs.1 c E' hold
    · exact hE
  · exact hs.1 d E' hE'

theorem emitLinkTx_portInv {Fs : List Bytes} (hFs : ∀ F ∈ Fs, F.length = 152) : PortInv (emitLinkTx Fs s) :=
  ⟨hs.1, fun F hF => (List.mem_append.mp hF).elim (hs.2 F) (hFs F)⟩

theorem emitAlert_portInv (code aux : Byte) (src : Option Packet) : PortInv (emitAlert code aux src s) :=
  emitFwd_portInv hs (length_alert code aux src) .fdir

theorem forwardEnvelope_portInv (c : Consumer) (p : Packet) : PortInv (forwardEnvelope c p s) :=
  emitFwd_portInv hs (length_envelope s.cfg p) c

theorem gateTimedOut_portInv (sv : Service) : PortInv (gateTimedOut sv s) :=
  emitAlert_portInv hs (s.gate.get sv).opcode 0 none

theorem signal_portInv (sv : Service) : PortInv (signal sv s) := by
  obtain ⟨-, -, h⟩ | ⟨-, h⟩ := signal_cases sv s <;> rw [h] <;> exact hs

theorem successReport_portInv (completion : Bool) (p : Packet) : PortInv (successReport completion p s) := by
  unfold successReport
  split
  · exact hs
  · exact signal_portInv (s := setTcv _ _ s) hs _

theorem emitBcastAll_portInv : PortInv (emitBcastAll s) := by
  obtain ⟨b, hb, -⟩ := emitBcastAll_spec s
  exact hb ▸ hs

theorem broadcastWrite_portInv : PortInv (broadcastWrite s) := by
  obtain ⟨b, hb, -⟩ := broadcastWrite_spec s
  exact hb ▸ hs

theorem timesync_portInv (p : Packet) : PortInv (timesync p s) := by
  unfold timesync
  split
  · exact broadcastWrite_portInv (emitAlert_portInv hs s.cfg.codes.timeOutOfSync 0 (some p))
  · exact hs

theorem violation_portInv (k : Reasm) (src : Packet) : PortInv (violation k src s) :=
  emitAlert_portInv hs s.cfg.codes.seqPacketRejected (reasmNumber k) (some src)

/-- A fragment goes to the session and its sink, or is answered by one alert (R222 to R226). -/
theorem feedReasm_portInv (k : Reasm) (p : Packet) : PortInv (feedReasm k p s) := by
  unfold feedReasm
  split <;> exact iteInduction (motive := PortInv) (fun _ => hs) fun _ => violation_portInv hs k p

theorem feedByConfig_portInv (p : Packet) : PortInv (feedByConfig p s) := by
  unfold feedByConfig
  split
  · exact feedReasm_portInv hs _ p
  · exact hs

theorem DispatchEffect.portInv {p : Packet} {t : State} (h : DispatchEffect p s t) : PortInv t := by
  cases h with
  | nothing => exact hs
  | report completion => exact successReport_portInv hs completion p
  | failure n => exact emitAlert_portInv hs s.cfg.codes.tcVerifyFailed n (some p)
  | log e => exact hs
  | alert n => exact emitAlert_portInv hs s.cfg.codes.eventAlert n (some p)
  | forward c => exact forwardEnvelope_portInv hs c p
  | feed c => exact feedByConfig_portInv (forwardEnvelope_portInv hs c p) p
  | time => exact timesync_portInv hs p

theorem runRx_portInv (B : Bytes) : PortInv (runRx B s) := by
  cases hd : decodeFrame s.cfg B with
  | none => exact runRx_of_decodeFrame_none hd ▸ hs
  | some p =>
    rw [runRx_of_decodeFrame hd]
    cases verifyPacket s.cfg p with
    | reject reason => exact hs
    | ok =>
      exact DispatchEffect.portInv (s := emitLog .verifyOk (loadPkt p (loadFrame B (emitArchive B s)))) hs
        (dispatch_effect p _)

theorem runAwait_portInv (sv : Service) (timeout : Nat) (op : Byte) : PortInv (runAwait sv timeout op s) := by
  dsimp only [runAwait]
  split_ifs
  · exact hs
  · exact gateTimedOut_portInv (s := setGate sv (armedCell s.cfg timeout op) s) hs sv
  · exact hs

theorem tickCell_portInv (sv : Service) : PortInv (tickCell s sv) := by
  dsimp only [tickCell]
  split_ifs
  · exact gateTimedOut_portInv (s := setGate sv _ s) hs sv
  · exact hs
  · exact hs

theorem foldl_tickCell_portInv (l : List Service) : PortInv (l.foldl tickCell s) := by
  induction l generalizing s with
  | nil => exact hs
  | cons sv l ih => exact ih (tickCell_portInv hs sv)

/-- Every operation that an agent may request emits envelopes and frames of their lengths only (R279). -/
theorem exec_portInv {t : State} {i : Instr} {a : Agent} (hp : permits s.cfg a i = true) (h : exec i s = .next t) :
    PortInv t := by
  cases i with
  | fletcher16 data offset count =>
    obtain ⟨-, rfl⟩ := execFletcher16_next h
    exact hs
  | encode hd payload =>
    obtain ⟨-, rfl⟩ := execEncode_next h
    exact hs
  | decode B => obtain ⟨p, -, rfl⟩ | ⟨-, rfl⟩ := execDecode_next h <;> exact hs
  | verify p => exact of_next h hs
  | rx B => exact of_next h (runRx_portInv hs B)
  | tc sender dest svc sub subCounter n appData =>
    obtain ⟨-, rfl⟩ := execTc_next h
    exact emitLinkTx_portInv hs fun _ => length_of_mem_tcFrames
  | ltSet d hr m sec => exact of_next h (broadcastWrite_portInv (s := setLt _ s) hs)
  | bcast => exact of_next h (iteInduction (motive := PortInv) (fun _ => emitBcastAll_portInv hs) fun _ => hs)
  | await sv timeout op =>
    obtain ⟨-, -, -, rfl⟩ := execAwait_next h
    exact runAwait_portInv hs sv timeout op
  | tick => exact of_next h (foldl_tickCell_portInv hs s.cfg.services)
  | _ => exact absurd hp (by simp [permits])

end Emitted

theorem resetWith_portInv (c : Config) : PortInv (State.resetWith c) :=
  ⟨fun d E hE => by cases d <;> exact absurd hE List.not_mem_nil, nofun⟩

/-- Settles O57: every envelope and frame is built with its length, the reset empties the ports, and a configuration load
leaves `FWD` and `LINK_TX` alone. -/
theorem stepKeepsEmittedLengths : Obligations.StepKeepsEmittedLengths := by
  intro s t hs h
  obtain ⟨-, rfl⟩ | ⟨r, rest, i, -, -, hp, hx⟩ | ⟨rest, -, rfl⟩ | ⟨c, rest, -, -, -, rfl⟩ := step_cases h
  · exact hs
  · exact exec_portInv (s := taken rest s) hs hp hx
  · exact resetWith_portInv s.cfg
  · exact hs

end Sys2Proof.Machine

/-! ### The step of a request (R68, R269, R279) -/

namespace Sys2Proof.Machine

section Step

variable {s : State} {a : Agent} {w : Words} {rest : List InputEvent}

theorem step_request (h : s.inbox = .request ⟨a, w⟩ :: rest) : step s = runRequest ⟨a, w⟩ (taken rest s) := by
  simp [step, runNext, runEvent, h]

theorem step_idle (h : s.inbox = []) : step s = .next s := by
  simp [step, runNext, h]

/-- Words that are no frame ask for the operation they decode to. -/
theorem requested_eq_decode (c : Config) (h : ∀ F, w ≠ .frame152 F) : requested c w = decode c w := by
  cases w with
  | frame152 F => exact absurd rfl (h F)
  | port code operands => rfl
  | seq2 flags operands => rfl

theorem runRequest_of_ok {i : Instr} (h : requested s.cfg w = .ok i) :
    (permits s.cfg a i = true → runRequest ⟨a, w⟩ s = exec i s) ∧
      (permits s.cfg a i = false → runRequest ⟨a, w⟩ s = .refused .wrongAgent) := by
  constructor <;> intro hp <;> simp [runRequest, h, hp]

theorem runRequest_of_error {e : DecodeError} (h : requested s.cfg w = .error e) :
    runRequest ⟨a, w⟩ s = .refused (.undecodable e) := by
  simp [runRequest, h]

end Step

theorem permits_dispatchInstr (c : Config) (a : Agent) (op : DispatchOp) (p : Packet) :
    permits c a (dispatchInstr op p) = false := by
  cases op <;> rfl

theorem permits_tc (c : Config) (a : Agent) (x d svc sub k : Byte) (n : Nat) (ap : Bytes) :
    permits c a (.tc x d svc sub k n ap) = true ↔ ∃ sv ∈ c.services, a = .service sv := by
  simp [permits]

/-- Settles O45: the step of a request is `runRequest`, and `permits` is R279's table. -/
theorem stepPerformsTheNextRequest : Obligations.StepPerformsTheNextRequest := by
  refine ⟨?_, fun s h => step_idle h, fun c a => ?_⟩
  · rintro s u a w rest hinbox rfl
    have hstep := step_request hinbox
    refine ⟨?_, fun hframe => ⟨fun i hd => ?_, fun e hd => ?_⟩⟩
    · rintro F rfl
      obtain ⟨hlink, hother⟩ := runRequest_of_ok (s := taken rest s) (a := a) (w := .frame152 F) rfl
      exact ⟨fun ha => hstep.trans (hlink (beq_iff_eq.mpr ha)), fun ha => hstep.trans (hother (beq_eq_false_iff_ne.mpr ha))⟩
    · obtain ⟨hmay, hmayNot⟩ := runRequest_of_ok (s := taken rest s) (a := a) ((requested_eq_decode s.cfg hframe).trans hd)
      exact ⟨fun hp => hstep.trans (hmay hp), fun hp => hstep.trans (hmayNot hp)⟩
    · exact hstep.trans (runRequest_of_error (s := taken rest s) ((requested_eq_decode s.cfg hframe).trans hd))
  · exact ⟨fun _ => beq_iff_eq, fun _ _ _ => beq_iff_eq, permits_tc c a, beq_iff_eq, fun _ _ _ _ => beq_iff_eq, beq_iff_eq,
      fun _ _ _ => beq_iff_eq, fun _ _ => beq_iff_eq, fun _ => beq_iff_eq, fun _ => beq_iff_eq, permits_dispatchInstr c a,
      fun _ _ _ _ => ⟨rfl, rfl, rfl, rfl⟩⟩

end Sys2Proof.Machine

/-! ### Reading back an encoded packet (R137) -/

namespace Sys2Proof.Machine

/-- The packet that `DECODE` reads from a frame with a given header record and payload: every field reduced to its width
(R134, R137), with the two checksum values. -/
def readBack (c : Config) (h : Header) (payload : Bytes) (received computed : Word16) : Packet where
  version := BitVec.ofNat 3 h.version
  pktType := BitVec.ofNat 1 h.pktType
  secHdrFlag := BitVec.ofNat 1 h.secHdrFlag
  apid := BitVec.ofNat 8 h.apid
  seqFlags := BitVec.ofNat 2 h.seqFlags
  seqCount := BitVec.ofNat 8 h.seqCount
  length := BitVec.ofNat 8 h.length
  ccsdsFlag := BitVec.ofNat 1 h.ccsdsFlag
  pktVersion := BitVec.ofNat 3 h.pktVersion
  ack := BitVec.ofNat 4 h.ack
  serviceType := BitVec.ofNat 8 h.serviceType
  serviceSubType := BitVec.ofNat 8 h.serviceSubType
  srcDstId := BitVec.ofNat 8 h.srcDstId
  subCounter := BitVec.ofNat 8 h.subCounter
  ts := ⟨h.ts.day % 2 ^ c.tsWidths.day, h.ts.hour % 2 ^ c.tsWidths.hour, h.ts.minute % 2 ^ c.tsWidths.minute,
    h.ts.second % 2 ^ c.tsWidths.second⟩
  payload := payload
  recvChecksum := received
  calcChecksum := computed

theorem layout_wf_of_wf {c : Config} (h : c.wf = true) : c.layout.wf = true := by
  simp only [Config.wf, Bool.and_eq_true] at h
  obtain ⟨⟨⟨⟨hlayout, -⟩, -⟩, -⟩, -⟩ := h
  exact hlayout

/-- The fields of an encoded frame, whatever checksum it carries. -/
theorem packetOfFrame_frameBody {c : Config} (hc : c.wf = true) (h : Header) {p : Bytes} (hp : p.length = 137)
    (k : Word16) : packetOfFrame c (checksumBytes c k ++ frameBody c h p) =
      readBack c h p k (frameChecksum (checksumBytes c k ++ frameBody c h p)) := by
  have hck := length_checksumBytes c k
  have hfield : ∀ f ∈ headerSlots c h,
      readField (checksumBytes c k ++ frameBody c h p) f.pos f.width = BitVec.ofNat f.width f.value :=
    fun f hf => readField_frame (layout_wf_of_wf hc) h p _ hck hf
  simp only [headerSlots, List.forall_mem_cons] at hfield
  obtain ⟨hversion, htype, hsec, hapid, hflags, hcount, hlength, hccsds, hpktVersion, hack, hsvc, hsub, hsrc, hctr, hhi,
    hlo, -⟩ := hfield
  have hts := toNat_word16_packTime c.tsWidths h.ts (tsWidths_sum_of_wf hc)
  simp only [packetOfFrame, readBack, hversion, htype, hsec, hapid, hflags, hcount, hlength, hccsds, hpktVersion, hack,
    hsvc, hsub, hsrc, hctr, hhi, hlo, hts, unpackTime_packTime, payload_frame c h p _ hck hp, readChecksum_frame]

/-- A time within its widths is not reduced. -/
theorem mod_eq_of_fits {w : TimeWidths} {t : Time} (h : t.fits w = true) :
    (⟨t.day % 2 ^ w.day, t.hour % 2 ^ w.hour, t.minute % 2 ^ w.minute, t.second % 2 ^ w.second⟩ : Time) = t := by
  simp only [Time.fits, Bool.and_eq_true, decide_eq_true_eq] at h
  obtain ⟨⟨⟨hday, hhour⟩, hminute⟩, hsecond⟩ := h
  rw [Nat.mod_eq_of_lt hday, Nat.mod_eq_of_lt hhour, Nat.mod_eq_of_lt hminute, Nat.mod_eq_of_lt hsecond]

/-- The fields of a packet are within their registers already. -/
theorem readBack_header {c : Config} {p : Packet} (h : p.ts.fits c.tsWidths = true) :
    readBack c p.header p.payload p.recvChecksum p.calcChecksum = p := by
  have hts : (readBack c p.header p.payload p.recvChecksum p.calcChecksum).ts = p.ts := mod_eq_of_fits h
  unfold readBack at hts ⊢
  simp only [Packet.header] at hts
  simp only [Packet.header, hts, BitVec.ofNat_toNat, BitVec.setWidth_eq]

theorem packet_wf_iff {c : Config} {p : Packet} :
    p.wf c = true ↔ p.payload.length = 137 ∧ p.ts.fits c.tsWidths = true := by
  simp [Packet.wf, payloadLen]

/-- A frame with zero pads carries its packet whole (R137, R139). -/
theorem packetOfFrame_frameOfPacket {c : Config} (hc : c.wf = true) {p : Packet} (hp : p.wf c = true)
    (hcan : p.canonical c = true) : packetOfFrame c (frameOfPacket c p) = p := by
  obtain ⟨hlen, hts⟩ := packet_wf_iff.mp hp
  have hcalc : p.calcChecksum = frameChecksum (frameOfPacket c p) := beq_iff_eq.mp hcan
  calc packetOfFrame c (frameOfPacket c p)
      = readBack c p.header p.payload p.recvChecksum (frameChecksum (frameOfPacket c p)) :=
        packetOfFrame_frameBody hc p.header hlen p.recvChecksum
    _ = p := by rw [← hcalc, readBack_header hts]

/-! ### Decoding inverts encoding, channel by channel (R107 to R109) -/

/-- Channel F152: the frame of a packet that selects an operation decodes to that operation on the packet (R107). -/
theorem decode_frameOfPacket {c : Config} (hc : c.wf = true) {op : DispatchOp} {p : Packet} (h : p.selects c op = true) :
    decode c (.frame152 (frameOfPacket c p)) = .ok (dispatchInstr op p) := by
  simp only [Packet.selects, Bool.and_eq_true, beq_iff_eq] at h
  obtain ⟨⟨hp, hcan⟩, hsel⟩ := h
  simp only [decode, decodeDispatch, decodeFrame_of_length (length_frameOfPacket c p),
    packetOfFrame_frameOfPacket hc hp hcan, hsel]

@[simp] theorem byteOperand_toNat (b : Byte) : byteOperand b.toNat = some b := by
  simp [byteOperand, b.isLt]

/-- Channel SEQ2: the flags select the operation, the operands are its arguments (R108, R220). -/
theorem decode_seq2 {c : Config} {frag : Bytes} {src : Packet} (h : seqOperandsWf c frag src = true) (flags : BitVec 2)
    (k : Reasm) (n : Byte) : decode c (.seq2 flags [.reasm k, .num n.toNat, .bytes frag, .packet src]) =
      .ok (seqInstr (seqOpOf flags) k n frag src) := by
  simp only [decode, decodeSeq, byteOperand_toNat, h, if_true]

/-- Each port operation has a code of its own (R109). -/
theorem portOpOf_portCode (op : PortOp) : portOpOf (portCode op) = some op := by
  cases op <;> rfl

/-- Channel PORT: the code selects the operation. -/
theorem decode_port (c : Config) (op : PortOp) (operands : List Operand) :
    decode c (.port (portCode op) operands) = decodePort c op operands := by
  simp only [decode, portOpOf_portCode]

/-- Settles O7: one case per channel; a frame carries its packet whole, a port code and sequence flags carry the operands. -/
theorem decodingInvertsEncodingOfOperations : Obligations.DecodingInvertsEncodingOfOperations := by
  intro c i hc hi
  cases i with
  | tcvAccOk p | tcvAccFail p | tcvExeOk p | tcvExeFail p | hk10 p | hk12 p | hk25 p | hk26 p | evt1 p | evt2 p | evt3 p
  | evt4 p | mem6 p | mem10 p | time2 p | sched4 p | fdirFwd p => exact (decode_frameOfPacket hc hi :)
  | seqCont k n frag src => exact decode_seq2 hi 0b00 k n
  | seqFirst k n frag src => exact decode_seq2 hi 0b01 k n
  | seqLast k n frag src => exact decode_seq2 hi 0b10 k n
  | seqStandalone k n frag src => exact decode_seq2 hi 0b11 k n
  | fletcher16 d o n => exact decode_port c .fletcher16 _
  | encode h p => exact decode_port c .encode _
  | decode F => exact decode_port c .decode _
  | rx F => exact decode_port c .rx _
  | ltSet d h m s => exact decode_port c .ltSet _
  | bcast => exact decode_port c .bcast _
  | tick => exact decode_port c .tick _
  | verify p => exact (decode_port c .verify _).trans (if_pos hi)
  | tc s d svc sub k n a => exact (decode_port c .tc _).trans (by simp [decodePort, decodeTc])
  | await sv t o => exact (decode_port c .await _).trans (by simp [decodePort, decodeAwait])

end Sys2Proof.Machine

/-! ### The selector and its table (R107) -/

namespace Sys2Proof.Machine

theorem word16_inj {a b x y : Byte} : word16 a b = word16 x y ↔ a = x ∧ b = y := by
  constructor
  · intro h
    have hhi := congrArg hiByte h
    have hlo := congrArg loByte h
    simp only [hiByte_word16, loByte_word16] at hhi hlo
    exact ⟨hhi, hlo⟩
  · rintro ⟨rfl, rfl⟩
    rfl

/-- A mask acts on the two bytes of a word separately. -/
theorem word16_and (a b x y : Byte) : word16 a b &&& word16 x y = word16 (a &&& x) (b &&& y) := by
  apply BitVec.eq_of_getLsbD_eq
  intro i hi
  by_cases h : i < 8
  · simp [word16, h, hi]
  · have hb : b.getLsbD i = false := BitVec.getLsbD_of_ge _ _ (by omega)
    have hy : y.getLsbD i = false := BitVec.getLsbD_of_ge _ _ (by omega)
    simp [word16, h, hi, hb, hy]

/-- A row whose mask is full applies to the pair of its pattern only. -/
theorem applies_pair {r : SelectorRow} (hr : r.mask = 0xFFFF) (p : Packet) :
    r.applies (selector p) = true ↔ p.serviceType = hiByte r.pattern ∧ p.serviceSubType = loByte r.pattern := by
  have hfull : (0xFFFF : Word16) = BitVec.allOnes 16 := rfl
  rw [SelectorRow.applies, beq_iff_eq, hr, hfull, BitVec.and_allOnes, selector, ← word16_inj, word16_hiByte_loByte]

/-- The row of `FDIR.FWD` applies to service type 70 with any subtype. -/
theorem applies_fdirFwd (p : Packet) (op : DispatchOp) :
    SelectorRow.applies ⟨0x4600, 0xFF00, op⟩ (selector p) = true ↔ p.serviceType = 70 := by
  have hmask : (0xFF00 : Word16) = word16 0xFF 0 := rfl
  have hpattern : (0x4600 : Word16) = word16 70 0 := rfl
  have hones : (0xFF : Byte) = BitVec.allOnes 8 := rfl
  rw [SelectorRow.applies, beq_iff_eq, selector, hmask, hpattern, word16_and, word16_inj, hones, BitVec.and_allOnes]
  simp

/-- No two rows apply to one selector: where both masks are set, their patterns differ. -/
theorem selectorTable_exclusive {r r' : SelectorRow} (hr : r ∈ selectorTable) (hr' : r' ∈ selectorTable) {sel : Word16}
    (h : r.applies sel = true) (h' : r'.applies sel = true) : r = r' := by
  have hpatterns : ∀ x ∈ selectorTable, ∀ y ∈ selectorTable, x.pattern &&& y.mask = y.pattern &&& x.mask → x = y := by
    decide
  refine hpatterns r hr r' hr' ?_
  rw [← beq_iff_eq.mp h, ← beq_iff_eq.mp h', BitVec.and_assoc, BitVec.and_assoc, BitVec.and_comm r.mask]

theorem mem_and_applies_of_find? {sel : Word16} {r : SelectorRow}
    (h : selectorTable.find? (fun r => r.applies sel) = some r) : r ∈ selectorTable ∧ r.applies sel = true := by
  have happlies := List.find?_some h
  exact ⟨List.mem_of_find?_eq_some h, happlies⟩

/-- A selector names the operations of the rows that apply to it. -/
theorem dispatchOpOf_eq_some_iff {sel : Word16} {op : DispatchOp} :
    dispatchOpOf sel = some op ↔ ∃ r ∈ selectorTable, r.applies sel = true ∧ r.op = op := by
  unfold dispatchOpOf
  rw [Option.map_eq_some_iff]
  constructor
  · rintro ⟨r, hfind, hop⟩
    obtain ⟨hr, happlies⟩ := mem_and_applies_of_find? hfind
    exact ⟨r, hr, happlies, hop⟩
  · rintro ⟨r, hr, happlies, hop⟩
    have hsome : (selectorTable.find? fun r => r.applies sel).isSome := List.find?_isSome.mpr ⟨r, hr, happlies⟩
    obtain ⟨r', hfind⟩ := Option.isSome_iff_exists.mp hsome
    obtain ⟨hr', happlies'⟩ := mem_and_applies_of_find? hfind
    obtain rfl := selectorTable_exclusive hr hr' happlies happlies'
    exact ⟨r, hfind, hop⟩

/-- The rows of R107 that list a pair: all but that of `FDIR.FWD`. -/
def pairRows : List SelectorRow := selectorTable.dropLast

theorem selectorTable_eq : selectorTable = pairRows ++ [⟨0x4600, 0xFF00, .fdirFwd⟩] := rfl

theorem mask_of_mem_pairRows : ∀ r ∈ pairRows, r.mask = 0xFFFF := by decide

/-- A row as R107 lists it: service type, subtype, operation. -/
def listed (r : SelectorRow) : (Nat × Nat) × DispatchOp := (((hiByte r.pattern).toNat, (loByte r.pattern).toNat), r.op)

theorem listed_eq_iff {r : SelectorRow} (hr : r.mask = 0xFFFF) {p : Packet} {op : DispatchOp} :
    listed r = ((p.serviceType.toNat, p.serviceSubType.toNat), op) ↔ r.applies (selector p) = true ∧ r.op = op := by
  rw [applies_pair hr, listed, Prod.mk.injEq, Prod.mk.injEq, ← BitVec.toNat_eq, ← BitVec.toNat_eq,
    eq_comm (a := hiByte _), eq_comm (a := loByte _)]

/-- A packet selects the operation of its listed pair, or `FDIR.FWD` with service type 70. -/
theorem dispatchOpOf_selector {p : Packet} {op : DispatchOp} :
    dispatchOpOf (selector p) = some op ↔
      ((p.serviceType.toNat, p.serviceSubType.toNat), op) ∈ pairRows.map listed ∨ (p.serviceType = 70 ∧ op = .fdirFwd) := by
  have hpairs : (∃ r ∈ pairRows, r.applies (selector p) = true ∧ r.op = op) ↔
      ∃ r ∈ pairRows, listed r = ((p.serviceType.toNat, p.serviceSubType.toNat), op) :=
    exists_congr fun r => and_congr_right fun hr => (listed_eq_iff (mask_of_mem_pairRows r hr)).symm
  simp only [dispatchOpOf_eq_some_iff, selectorTable_eq, List.mem_append, List.mem_singleton, or_and_right, exists_or,
    exists_eq_left, hpairs, List.mem_map, applies_fdirFwd, eq_comm (a := DispatchOp.fdirFwd)]

/-- Settles O8: at most one row applies to a selector, a row of a pair to that pair, the last one to service type 70. -/
theorem selectorNamesOneOperation : Obligations.SelectorNamesOneOperation := by
  intro p op
  have h70 : p.serviceType = 70 ↔ p.serviceType.toNat = 70 := BitVec.toNat_eq
  rw [← h70]
  exact dispatchOpOf_selector

/-! ### What a verified packet selects (R153, R155, R198) -/

/-- Check 3 admits the six service types of R153. -/
theorem check3_eq_true {p : Packet} : check3 p = true ↔ p.serviceType ∈ ([1, 3, 5, 6, 9, 69] : List Byte) :=
  List.contains_iff_mem

theorem check4_eq_true {c : Config} {p : Packet} :
    check4 c p = true ↔ p.serviceSubType ∈ subtypesOf c p.serviceType :=
  List.contains_iff_mem

theorem fdirFwd_notMem_pairRows : ∀ x ∈ pairRows.map listed, x.2 ≠ .fdirFwd := by decide

/-- Only service type 70 selects `FDIR.FWD`. -/
theorem dispatchOpOf_eq_fdirFwd {p : Packet} : dispatchOpOf (selector p) = some .fdirFwd ↔ p.serviceType = 70 := by
  rw [dispatchOpOf_selector]
  constructor
  · rintro (hmem | ⟨h70, -⟩)
    · exact absurd rfl (fdirFwd_notMem_pairRows _ hmem)
    · exact h70
  · exact fun h70 => .inr ⟨h70, rfl⟩

/-- Every pair that the whitelist of R155 admits is one of R107's. -/
theorem dispatchOpOf_whitelisted {c : Config} (hwl : c.subtypeWl = defaultWhitelist) {svc sub : Byte}
    (hsvc : svc ∈ ([1, 3, 5, 6, 9, 69] : List Byte)) (hsub : sub ∈ subtypesOf c svc) :
    dispatchOpOf (word16 svc sub) ≠ none := by
  have hboot : subtypesOf c svc = subtypesOf bootConfig svc := by
    simp only [subtypesOf, hwl, bootConfig]
  have hpairs : ∀ x ∈ ([1, 3, 5, 6, 9, 69] : List Byte), ∀ y ∈ subtypesOf bootConfig x,
      dispatchOpOf (word16 x y) ≠ none := by
    decide
  exact hpairs svc hsvc sub (hboot ▸ hsub)

/-- Settles O16: check 3 leaves service type 70 out, check 4 under R155 admits R107's pairs only. -/
theorem verifiedPacketsNeverSelectFdir : Obligations.VerifiedPacketsNeverSelectFdir := by
  intro c p hok
  obtain ⟨-, -, hservice, hsubtype, -⟩ := verifyPacket_eq_ok.mp hok
  have hmem := check3_eq_true.mp hservice
  have h70 : p.serviceType ≠ 70 := fun he => absurd (he ▸ hmem) (by decide)
  exact ⟨h70, mt dispatchOpOf_eq_fdirFwd.mp h70,
    fun hwl => dispatchOpOf_whitelisted hwl hmem (check4_eq_true.mp hsubtype)⟩

end Sys2Proof.Machine

/-! ### The words of the opcode table (R107 to R109, R114) -/

namespace Sys2Proof.Machine

/-- What is read back has the shape of the registers (R22, R23). -/
theorem readBack_wf (c : Config) (h : Header) {p : Bytes} (hp : p.length = 137) (k k' : Word16) :
    (readBack c h p k k').wf c = true := by
  simp [packet_wf_iff, readBack, hp, Time.fits, Nat.mod_lt]

/-- An encoded frame decodes to its header and payload, with equal checksums (R137). -/
theorem decodeFrame_encodeFrame {c : Config} (hc : c.wf = true) (h : Header) {p : Bytes} (hp : p.length = 137) :
    decodeFrame c (encodeFrame c h p) =
      some (readBack c h p (frameChecksum (0 :: 0 :: frameBody c h p)) (frameChecksum (0 :: 0 :: frameBody c h p))) := by
  rw [decodeFrame_of_length (length_encodeFrame c h p), encodeFrame, packetOfFrame_frameBody hc h hp,
    frameChecksum_append _ _ [0, 0] (length_checksumBytes c _) rfl]
  rfl

/-- The packet of the frame `TM` of R114. -/
def tmPacket (c : Config) (svc sub : Byte) (flags : Nat) : Packet :=
  let k := frameChecksum (0 :: 0 :: frameBody c (tmHeader c svc sub flags) (List.replicate 137 0))
  readBack c (tmHeader c svc sub flags) (List.replicate 137 0) k k

theorem decodeFrame_tmFrame {c : Config} (hc : c.wf = true) (svc sub : Byte) (flags : Nat) :
    decodeFrame c (tmFrame c svc sub flags) = some (tmPacket c svc sub flags) :=
  decodeFrame_encodeFrame hc _ List.length_replicate

theorem tmPacket_wf (c : Config) (svc sub : Byte) (flags : Nat) : (tmPacket c svc sub flags).wf c = true :=
  readBack_wf c _ List.length_replicate _ _

@[simp] theorem tmPacket_serviceType (c : Config) (svc sub : Byte) (flags : Nat) :
    (tmPacket c svc sub flags).serviceType = svc :=
  (BitVec.ofNat_toNat 8 svc).trans (BitVec.setWidth_eq svc)

@[simp] theorem tmPacket_serviceSubType (c : Config) (svc sub : Byte) (flags : Nat) :
    (tmPacket c svc sub flags).serviceSubType = sub :=
  (BitVec.ofNat_toNat 8 sub).trans (BitVec.setWidth_eq sub)

@[simp] theorem tmPacket_seqFlags (c : Config) (svc sub : Byte) (flags : Nat) :
    (tmPacket c svc sub flags).seqFlags = BitVec.ofNat 2 flags := rfl

@[simp] theorem tmPacket_payload (c : Config) (svc sub : Byte) (flags : Nat) :
    (tmPacket c svc sub flags).payload = List.replicate 137 0 := rfl

/-- Under the default slice a packet's fragment is its payload (P14, R221). -/
theorem fragment_defaultFragSlice {c : Config} (hc : c.fragSlice = defaultFragSlice) {p : Packet}
    (hp : p.payload.length = 137) : fragment c p = p.payload := by
  have hslice : fragment c p = ((List.finRange 137).map Fin.val).map (byteAt p.payload) := by
    rw [fragment, hc, List.map_map]
    rfl
  rw [hslice, List.map_coe_finRange_eq_range]
  exact firstBytes_of_length hp

/-- A well-formed packet and its own fragment are operands of a reassembler operation (R220, R221). -/
theorem seqOperandsWf_fragment {c : Config} {p : Packet} (hp : p.wf c = true) : seqOperandsWf c (fragment c p) p = true := by
  simp [seqOperandsWf, hp, length_fragment]

/-- A 16-bit word stands for a frame and decodes to the operation that its two bytes select (R107). -/
theorem decodeTableWord_selector (w : Nat) :
    decodeTableWord 16 w = (dispatchOpOf (word16 (BitVec.ofNat 8 (w / 256)) (BitVec.ofNat 8 w))).map fun op =>
      dispatchInstr op (tmPacket bootConfig (BitVec.ofNat 8 (w / 256)) (BitVec.ofNat 8 w) 3) := by
  have hword : decodeTableWord 16 w =
      (decodeDispatch bootConfig (tmFrame bootConfig (BitVec.ofNat 8 (w / 256)) (BitVec.ofNat 8 w) 3)).toOption := rfl
  rw [hword, decodeDispatch, decodeFrame_tmFrame bootConfig_wf]
  simp only [selector, tmPacket_serviceType, tmPacket_serviceSubType]
  cases dispatchOpOf (word16 (BitVec.ofNat 8 (w / 256)) (BitVec.ofNat 8 w)) <;> rfl

/-- A 2-bit word stands for a fragment of zeros fed to `MEMDUMP` and decodes to the operation of its flags (R108). -/
theorem decodeTableWord_flags (w : Nat) :
    decodeTableWord 2 w = some (seqInstr (seqOpOf (BitVec.ofNat 2 w)) .memDump 0 (List.replicate 137 0)
      (tmPacket bootConfig 6 6 (BitVec.ofNat 2 w).toNat)) := by
  have hword : decodeTableWord 2 w = (decode bootConfig (.seq2 (BitVec.ofNat 2 w)
      [.reasm .memDump, .num (0 : Byte).toNat,
        .bytes (fragment bootConfig (packetOfFrame bootConfig (fragmentFrame bootConfig (BitVec.ofNat 2 w)))),
        .packet (packetOfFrame bootConfig (fragmentFrame bootConfig (BitVec.ofNat 2 w)))])).toOption := rfl
  obtain ⟨-, hpacket⟩ := decodeFrame_some (decodeFrame_tmFrame bootConfig_wf 6 6 (BitVec.ofNat 2 w).toNat)
  have hfragment : fragment bootConfig (tmPacket bootConfig 6 6 (BitVec.ofNat 2 w).toNat) = List.replicate 137 0 :=
    fragment_defaultFragSlice rfl List.length_replicate
  have hoperands := seqOperandsWf_fragment (tmPacket_wf bootConfig 6 6 (BitVec.ofNat 2 w).toNat)
  rw [hword, fragmentFrame, ← hpacket, decode_seq2 hoperands, hfragment]
  rfl

/-- Settles O9: each word by the rule of its format; the selectors by R107's table, the port codes by R109's. -/
theorem tableWordsDecode : Obligations.TableWordsDecode := by
  have hnone : dispatchOpOf (word16 (BitVec.ofNat 8 (0x0302 / 256)) (BitVec.ofNat 8 0x0302)) = none := by decide
  have hhk : dispatchOpOf (word16 (BitVec.ofNat 8 (0x0319 / 256)) (BitVec.ofNat 8 0x0319)) = some .hk25 := by decide
  have hsched : dispatchOpOf (word16 (BitVec.ofNat 8 (0x4504 / 256)) (BitVec.ofNat 8 0x4504)) = some .sched4 := by decide
  refine ⟨rfl, rfl, rfl, rfl, rfl, ?_, ?_, ?_, ?_⟩
  · rw [decodeTableWord_selector, hnone]
    rfl
  · rw [decodeTableWord_selector, hhk]
    exact ⟨_, rfl, tmPacket_serviceType .., tmPacket_serviceSubType ..⟩
  · rw [decodeTableWord_selector, hsched]
    exact ⟨_, rfl, tmPacket_serviceType .., tmPacket_serviceSubType ..⟩
  · exact ⟨_, decodeTableWord_flags 0b10, rfl⟩

end Sys2Proof.Machine

/-! ### The checksum loop (R131, R132) -/

namespace Sys2Proof.Machine

theorem fletcherSums_concat (b : Bytes) (x : Byte) : fletcherSums (b ++ [x]) = fletcherStep (fletcherSums b) x := by
  simp [fletcherSums]

theorem fletcherSums_lt (b : Bytes) : (fletcherSums b).1 < 255 ∧ (fletcherSums b).2 < 255 :=
  foldl_fletcherStep_lt b (acc := (0, 0)) (by decide)

/-- The returned word is `(sum2 << 8) | sum1`, and no bit is lost (R131). -/
theorem toNat_fletcher16 (data : Bytes) (offset count : Nat) :
    (fletcher16 data offset count).toNat =
      (fletcherSums ((data.drop offset).take count)).2 * 256 + (fletcherSums ((data.drop offset).take count)).1 := by
  obtain ⟨h1, h2⟩ := fletcherSums_lt ((data.drop offset).take count)
  rw [fletcher16, toNat_word16, BitVec.toNat_ofNat, BitVec.toNat_ofNat, Nat.mod_eq_of_lt (by omega),
    Nat.mod_eq_of_lt (by omega)]

/-- One more byte of a range that stays within the data. -/
theorem take_succ_drop {data : Bytes} {offset i : Nat} (h : offset + i < data.length) :
    (data.drop offset).take (i + 1) = (data.drop offset).take i ++ [byteAt data (offset + i)] := by
  rw [List.take_add_one, List.getElem?_drop, byteAt, List.getD_eq_getElem?_getD, List.getElem?_eq_getElem h]
  rfl

theorem exec_fletcher16 (data : Bytes) (offset count : Nat) (s : State) :
    exec (.fletcher16 data offset count) s = execFletcher16 data offset count s := rfl

/-- Settles O1: the accumulators after `i` turns are those of the first `i` bytes of the range. -/
theorem fletcher16RunsItsLoop : Obligations.Fletcher16RunsItsLoop := by
  intro data offset count s
  rw [exec_fletcher16, execFletcher16]
  constructor
  · intro hrange
    refine ⟨fun i => (fletcherSums ((data.drop offset).take i)).1, fun i => (fletcherSums ((data.drop offset).take i)).2,
      fletcher16 data offset count, rfl, rfl, ?_, toNat_fletcher16 data offset count, if_pos hrange⟩
    intro i hi
    have hturn : fletcherSums ((data.drop offset).take (i + 1)) =
        fletcherStep (fletcherSums ((data.drop offset).take i)) (byteAt data (offset + i)) := by
      rw [take_succ_drop (by omega), fletcherSums_concat]
    simp only [hturn]
    exact ⟨rfl, rfl⟩
  · intro hrange
    exact if_neg (by omega)

/-- The sum of the bytes of a list, the byte at index `i` taken `n - i` times. -/
def weightedSum (n : Nat) (b : Bytes) : Nat := (b.mapIdx fun i x => (n - i) * x.toNat).sum

theorem weightedSum_concat (n : Nat) (b : Bytes) (x : Byte) :
    weightedSum n (b ++ [x]) = weightedSum n b + (n - b.length) * x.toNat := by
  simp [weightedSum, List.mapIdx_concat]

/-- One more turn counts every byte once more. -/
theorem weightedSum_succ {n : Nat} {b : Bytes} (h : b.length ≤ n) :
    weightedSum (n + 1) b = weightedSum n b + (b.map BitVec.toNat).sum := by
  induction b using List.reverseRecOn with
  | nil => rfl
  | append_singleton b x ih =>
    rw [List.length_append, List.length_singleton] at h
    have hweight : n + 1 - b.length = n - b.length + 1 := by omega
    rw [weightedSum_concat, weightedSum_concat, ih (by omega), hweight, List.map_append, List.sum_append, List.map_singleton,
      List.sum_singleton]
    ring

/-- The closed forms of both accumulators (R132). -/
theorem fletcherSums_closed (b : Bytes) :
    (fletcherSums b).1 = (b.map BitVec.toNat).sum % 255 ∧ (fletcherSums b).2 = weightedSum b.length b % 255 := by
  induction b using List.reverseRecOn with
  | nil => exact ⟨rfl, rfl⟩
  | append_singleton b x ih =>
    obtain ⟨h1, h2⟩ := ih
    have hsum : weightedSum (b ++ [x]).length (b ++ [x]) = weightedSum b.length b + (b.map BitVec.toNat).sum + x.toNat := by
      rw [List.length_append, List.length_singleton, weightedSum_concat, weightedSum_succ le_rfl, Nat.add_sub_cancel_left,
        Nat.one_mul]
    rw [fletcherSums_concat, hsum, List.map_append, List.sum_append, List.map_singleton, List.sum_singleton]
    simp only [fletcherStep, h1, h2]
    omega

/-- A byte FF counts like a byte 00 (R132). -/
theorem fletcherStep_255 (acc : Nat × Nat) : fletcherStep acc 0xFF = fletcherStep acc 0x00 := by
  simp [fletcherStep]

/-- Settles O2: the bounds from the reduction of every turn, the closed forms by induction from the right. -/
theorem checksumArithmetic : Obligations.ChecksumArithmetic := by
  intro pre post x
  obtain ⟨h1, h2⟩ := fletcherSums_lt pre
  obtain ⟨h1', -⟩ := fletcherSums_lt (pre ++ [x])
  obtain ⟨hclosed1, hclosed2⟩ := fletcherSums_closed pre
  have hx := x.isLt
  have hcollide : fletcherSums (pre ++ 0xFF :: post) = fletcherSums (pre ++ 0x00 :: post) := by
    simp only [fletcherSums, List.foldl_append, List.foldl_cons, fletcherStep_255]
  exact ⟨by omega, by omega, by omega, by omega, hcollide, hclosed1, hclosed2⟩

end Sys2Proof.Machine

/-! ### The round trip of a header record and a payload (R134, R136, R137) -/

namespace Sys2Proof.Machine

/-- A well-formed header record is read back as it is (R136, R137). -/
theorem header_readBack {c : Config} {h : Header} (hwf : h.wf c = true) (p : Bytes) (k k' : Word16) :
    (readBack c h p k k').header = h := by
  simp only [Header.wf, Bool.and_eq_true, decide_eq_true_eq] at hwf
  obtain ⟨⟨⟨⟨⟨⟨⟨⟨⟨⟨⟨⟨⟨⟨hversion, htype⟩, hsec⟩, hapid⟩, hflags⟩, hcount⟩, hlength⟩, hccsds⟩, hpktVersion⟩, hack⟩, hsvc⟩,
    hsub⟩, hsrc⟩, hctr⟩, hts⟩ := hwf
  have htime := mod_eq_of_fits hts
  simp only [Packet.header, readBack, htime, BitVec.toNat_ofNat]
  simp only [Nat.reducePow, Nat.mod_eq_of_lt, *]

/-- Settles O5: the decoded packet is the read-back of `h` and `p`. -/
theorem decodeInvertsEncode : Obligations.DecodeInvertsEncode := by
  intro c h p hc hp
  refine ⟨_, decodeFrame_encodeFrame hc h hp, rfl, rfl, fun hwf => header_readBack hwf _ _ _, ?_⟩
  simp only [readBack, BitVec.toNat_ofNat, Nat.reducePow, and_self]

end Sys2Proof.Machine

/-! ### The bytes of a frame under the default layout (R92, R99, R100, R102) -/

namespace Sys2Proof.Machine

theorem byteAt_drop (b : Bytes) (n i : Nat) : byteAt (b.drop n) i = byteAt b (n + i) := by
  simp [byteAt, List.getElem?_drop]

theorem byteAt_firstBytes (b : Bytes) {n i : Nat} (h : i < n) : byteAt (firstBytes n b) i = byteAt b i := by
  rw [byteAt, List.getD_eq_getElem?_getD, firstBytes_getElem? b h, Option.getD_some]

theorem firstBytes_eq_take {n : Nat} {b : Bytes} (h : n ≤ b.length) : firstBytes n b = b.take n := by
  have htake : firstBytes n b = firstBytes n (b.take n) :=
    List.map_congr_left fun i hi => by simp [byteAt, List.mem_range.mp hi]
  rw [htake, firstBytes_of_length (List.length_take_of_le h)]

/-- Two lists of one length with the same bytes are equal. -/
theorem ext_byteAt {a b : Bytes} (hlen : a.length = b.length) (h : ∀ i < b.length, byteAt a i = byteAt b i) : a = b := by
  calc a = firstBytes b.length a := (firstBytes_of_length hlen).symm
    _ = firstBytes b.length b := List.map_congr_left fun i hi => h i (List.mem_range.mp hi)
    _ = b := firstBytes_of_length rfl

/-- A field that fills a byte. -/
theorem readField_byte (F : Bytes) (j : Nat) : readField F ⟨j, 0⟩ 8 = byteAt F j := by
  rw [readField_inside F ⟨j, 0⟩ 8 (Nat.le_refl 8)]
  exact BitVec.eq_of_toNat_eq (by simp)

/-- A field within one byte, as a number. -/
theorem toNat_readField (F : Bytes) (pos : FieldPos) (w : Nat) (h : pos.lo.val + w ≤ 8) :
    (readField F pos w).toNat = (byteAt F pos.byte).toNat / 2 ^ pos.lo.val % 2 ^ w := by
  rw [readField_inside F pos w h, BitVec.extractLsb'_toNat, Nat.shiftRight_eq_div_pow]

/-- A place that shares no bit with any field reads as zero in an encoded frame (R102). -/
theorem readField_frame_pad (c : Config) (h : Header) (p ck : Bytes) (hck : ck.length = 2) {pos : FieldPos} {w : Nat}
    (hw : w ≤ 8) (hbyte : 139 ≤ pos.byte) (hend : pos.bit + w ≤ 8 * 152)
    (hpad : ∀ span ∈ layoutSpans c.layout, spansDisjoint (pos, w) span = true) :
    readField (ck ++ frameBody c h p) pos w = 0 := by
  apply BitVec.eq_of_getLsbD_eq
  intro i hi
  have hpos : 8 * pos.byte ≤ pos.bit := Nat.le_add_right _ _
  have hnone : ((headerSlots c h).any fun f => f.fills (pos.bit + i)) = false := by
    rw [List.any_eq_false]
    intro f hf
    have hspan := hpad f.span (headerSlots_span c h ▸ List.mem_map_of_mem hf)
    have hspan : pos.bit + w ≤ f.pos.bit ∨ f.pos.bit + f.width ≤ pos.bit :=
      ((Bool.or_eq_true _ _).mp hspan).imp of_decide_eq_true of_decide_eq_true
    rw [Slot.fills_outside (by omega)]
    decide
  rw [getLsbD_readField _ _ hw hi, byteAt_header c h p ck hck (by omega) (by omega),
    getLsbD_headerByte (headerSlots_width c h) (Nat.mod_lt _ (by omega)), Nat.div_add_mod, hnone]
  exact BitVec.getLsbD_zero.symm

/-- The pad bits of the default layout are zero (R102). -/
structure ZeroPads (F : Bytes) : Prop where
  byte151 : (byteAt F 151).toNat % 8 = 0
  byte149 : (byteAt F 149).toNat % 64 = 0
  byte147 : byteAt F 147 = 0

/-- `ENCODE` writes the pad bits zero (R102). -/
theorem encodeFrame_zeroPads {c : Config} (hlayout : c.layout = defaultLayout) (h : Header) (p : Bytes) :
    ZeroPads (encodeFrame c h p) := by
  have hpad : ∀ (pos : FieldPos) (w : Nat), w ≤ 8 → 139 ≤ pos.byte → pos.bit + w ≤ 8 * 152 →
      (∀ span ∈ layoutSpans defaultLayout, spansDisjoint (pos, w) span = true) →
      readField (encodeFrame c h p) pos w = 0 := fun pos w hw hbyte hend hspans =>
    readField_frame_pad c h p _ (length_checksumBytes c _) hw hbyte hend (hlayout.symm ▸ hspans)
  have h151 := hpad ⟨151, 0⟩ 3 (by decide) (by decide) (by decide) (by decide)
  have h149 := hpad ⟨149, 0⟩ 6 (by decide) (by decide) (by decide) (by decide)
  have h147 := hpad ⟨147, 0⟩ 8 (by decide) (by decide) (by decide) (by decide)
  rw [readField_byte] at h147
  have h151' := congrArg BitVec.toNat h151
  have h149' := congrArg BitVec.toNat h149
  rw [toNat_readField _ _ _ (by decide)] at h151' h149'
  exact ⟨by simpa using h151', by simpa using h149', h147⟩

section DefaultLayout

variable {c : Config} (hlayout : c.layout = defaultLayout) (F : Bytes)

include hlayout

/-- The fields that fill a byte each. -/
theorem packetOfFrame_bytes :
    (packetOfFrame c F).apid = byteAt F 150 ∧ (packetOfFrame c F).seqCount = byteAt F 148 ∧
      (packetOfFrame c F).length = byteAt F 146 ∧ (packetOfFrame c F).serviceType = byteAt F 144 ∧
      (packetOfFrame c F).serviceSubType = byteAt F 143 ∧ (packetOfFrame c F).srcDstId = byteAt F 142 ∧
      (packetOfFrame c F).subCounter = byteAt F 141 := by
  simp only [packetOfFrame, hlayout, defaultLayout, lengthPos, readField_byte, and_self]

/-- The fields of the packet-id byte. -/
theorem packetOfFrame_byte151 :
    (packetOfFrame c F).version.toNat = (byteAt F 151).toNat / 32 ∧
      (packetOfFrame c F).pktType.toNat = (byteAt F 151).toNat / 16 % 2 ∧
      (packetOfFrame c F).secHdrFlag.toNat = (byteAt F 151).toNat / 8 % 2 := by
  have hversion := toNat_readField F ⟨151, 5⟩ 3 (by decide)
  have htype := toNat_readField F ⟨151, 4⟩ 1 (by decide)
  have hsec := toNat_readField F ⟨151, 3⟩ 1 (by decide)
  have hb := (byteAt F 151).isLt
  simp only [packetOfFrame, hlayout, defaultLayout]
  norm_num at hversion htype hsec hb
  omega

/-- The field of the sequence-flags byte. -/
theorem packetOfFrame_byte149 : (packetOfFrame c F).seqFlags.toNat = (byteAt F 149).toNat / 64 := by
  have hflags := toNat_readField F ⟨149, 6⟩ 2 (by decide)
  have hb := (byteAt F 149).isLt
  simp only [packetOfFrame, hlayout, defaultLayout]
  norm_num at hflags hb
  omega

/-- The fields of the acknowledgement byte. -/
theorem packetOfFrame_byte145 :
    (packetOfFrame c F).ccsdsFlag.toNat = (byteAt F 145).toNat / 128 ∧
      (packetOfFrame c F).pktVersion.toNat = (byteAt F 145).toNat / 16 % 8 ∧
      (packetOfFrame c F).ack.toNat = (byteAt F 145).toNat % 16 := by
  have hccsds := toNat_readField F ⟨145, 7⟩ 1 (by decide)
  have hversion := toNat_readField F ⟨145, 4⟩ 3 (by decide)
  have hack := toNat_readField F ⟨145, 0⟩ 4 (by decide)
  have hb := (byteAt F 145).isLt
  simp only [packetOfFrame, hlayout, defaultLayout]
  norm_num at hccsds hversion hack hb
  omega

/-- The timestamp is split from the word of bytes 140 and 139. -/
theorem packetOfFrame_ts :
    (packetOfFrame c F).ts = unpackTime c.tsWidths ((byteAt F 140).toNat * 256 + (byteAt F 139).toNat) := by
  simp only [packetOfFrame, hlayout, defaultLayout, readField_byte, toNat_word16]

end DefaultLayout

theorem byteAt_payload (c : Config) (F : Bytes) {i : Nat} (h : i < 137) :
    byteAt (packetOfFrame c F).payload i = byteAt F (2 + i) :=
  (byteAt_firstBytes _ h).trans (byteAt_drop F 2 i)

/-! `DECODE` -/

theorem exec_decode (F : Bytes) (s : State) : exec (.decode F) s = execDecode F s := rfl

theorem execDecode_frame {F : Bytes} (hF : F.length = 152) (s : State) :
    execDecode F s = .next (answered (.packet (packetOfFrame s.cfg F)) { s with pkt := packetOfFrame s.cfg F }) := by
  rw [execDecode, decodeFrame_of_length hF]
  rfl

theorem execDecode_lengthError {F : Bytes} (hF : F.length ≠ 152) (s : State) :
    execDecode F s = .next (answered (.frameLengthError F.length) s) := by
  rw [execDecode, decodeFrame_eq_none.mpr hF]
  rfl

theorem readChecksum_hiFirst {c : Config} (h : c.cksHiIndex = 1) (F : Bytes) :
    readChecksum c F = word16 (byteAt F 1) (byteAt F 0) := if_pos h

/-- Settles O4: the places of the fields byte by byte, and the two branches of `DECODE`. -/
theorem decodeReadsTheFrame : Obligations.DecodeReadsTheFrame := by
  intro F s hlayout hhi _
  rw [exec_decode]
  refine ⟨fun hF => ⟨packetOfFrame s.cfg F, (byteAt F 140).toNat * 256 + (byteAt F 139).toNat, execDecode_frame hF s, ?_⟩,
    fun hF => execDecode_lengthError hF s⟩
  obtain ⟨hversion, htype, hsec⟩ := packetOfFrame_byte151 hlayout F
  obtain ⟨hapid, hcount, hlength, hsvc, hsub, hsrc, hctr⟩ := packetOfFrame_bytes hlayout F
  obtain ⟨hccsds, hpktVersion, hack⟩ := packetOfFrame_byte145 hlayout F
  have hts := packetOfFrame_ts hlayout F
  have hpayload : (packetOfFrame s.cfg F).payload = (F.drop 2).take 137 :=
    firstBytes_eq_take (by rw [List.length_drop, hF]; decide)
  have hrecv : (packetOfFrame s.cfg F).recvChecksum.toNat = (byteAt F 1).toNat * 256 + (byteAt F 0).toNat :=
    (congrArg BitVec.toNat (readChecksum_hiFirst hhi F)).trans (toNat_word16 _ _)
  exact ⟨hversion, htype, hsec, hapid, packetOfFrame_byte149 hlayout F, hcount, hlength, hccsds, hpktVersion, hack, hsvc,
    hsub, hsrc, hctr, rfl, congrArg Time.second hts, congrArg Time.minute hts, congrArg Time.hour hts,
    congrArg Time.day hts, hpayload, hrecv, rfl⟩

/-! `ENCODE` -/

/-- A configuration with the codec parameters of `c` (P1, P2, P3) and the others at their values at reset: the codec reads no
other parameter. -/
def codecConfig (c : Config) : Config :=
  { bootConfig with layout := c.layout, tsWidths := c.tsWidths, cksHiIndex := c.cksHiIndex }

theorem codecConfig_wf {c : Config} (hlayout : c.layout.wf = true) (hsum : c.tsWidths.sum = 16) :
    (codecConfig c).wf = true := by
  have hboot := bootConfig_wf
  simp only [Config.wf, Bool.and_eq_true, beq_iff_eq] at hboot ⊢
  obtain ⟨⟨⟨-, hnodup⟩, hapids⟩, hwl⟩ := hboot
  exact ⟨⟨⟨⟨hlayout, hsum⟩, hnodup⟩, hapids⟩, hwl⟩

theorem defaultLayout_wf : defaultLayout.wf = true := by decide

/-- The packet of an encoded frame under the default layout; of the other parameters the codec asks nothing. -/
theorem packetOfFrame_encodeFrame {c : Config} (hlayout : c.layout = defaultLayout) (hsum : c.tsWidths.sum = 16) (h : Header)
    {p : Bytes} (hp : p.length = 137) :
    ∃ k, packetOfFrame c (encodeFrame c h p) = readBack c h p k k := by
  have hdecode := decodeFrame_encodeFrame (codecConfig_wf (hlayout ▸ defaultLayout_wf) hsum) h hp
  obtain ⟨-, hpacket⟩ := decodeFrame_some hdecode
  exact ⟨_, hpacket.symm⟩

/-- A timestamp word is determined by its components: `day` takes all the bits above the other three (R99). -/
theorem unpackTime_injective (w : TimeWidths) : Function.Injective (unpackTime w) := by
  intro a b h
  obtain ⟨hday, hhour, hminute, hsecond⟩ := Time.mk.inj h
  have hupper : ∀ i k, a / 2 ^ i % 2 ^ k = b / 2 ^ i % 2 ^ k → a / 2 ^ (i + k) = b / 2 ^ (i + k) →
      a / 2 ^ i = b / 2 ^ i := by
    intro i k hmod hdiv
    rw [Nat.pow_add, ← Nat.div_div_eq_div_mul, ← Nat.div_div_eq_div_mul] at hdiv
    exact Nat.ext_div_mod hdiv hmod
  exact Nat.ext_div_mod (hupper _ _ hminute (hupper _ _ hhour hday)) hsecond

theorem exec_encode (h : Header) (p : Bytes) (s : State) : exec (.encode h p) s = execEncode h p s := rfl

/-- Settles O3: the fields of the frame read back as those of `h`, and the bits that no field reads are zero. -/
theorem encodePacksTheFrame : Obligations.EncodePacksTheFrame := by
  intro h p s hlayout hhi hsum
  rw [exec_encode, execEncode]
  refine ⟨fun hp => ⟨encodeFrame s.cfg h p, if_pos hp, length_encodeFrame _ _ _, ?_⟩, fun hp => if_neg hp⟩
  obtain ⟨k, hback⟩ := packetOfFrame_encodeFrame hlayout hsum h hp
  obtain ⟨hpad151, hpad149, hpad147⟩ := encodeFrame_zeroPads hlayout h p
  generalize encodeFrame s.cfg h p = F at hback hpad151 hpad149 hpad147
  have hpayload : ∀ i < 137, byteAt (packetOfFrame s.cfg F).payload i = byteAt F (2 + i) := fun i => byteAt_payload s.cfg F
  have hts := packetOfFrame_ts hlayout F
  obtain ⟨hversion, htype, hsec⟩ := packetOfFrame_byte151 hlayout F
  have hflags := packetOfFrame_byte149 hlayout F
  obtain ⟨hapid, hcount, hlength, hsvc, hsub, hsrc, hctr⟩ := packetOfFrame_bytes hlayout F
  obtain ⟨hccsds, hpktVersion, hack⟩ := packetOfFrame_byte145 hlayout F
  have hrecv : word16 (byteAt F 1) (byteAt F 0) = (packetOfFrame s.cfg F).recvChecksum := (readChecksum_hiFirst hhi F).symm
  have hcalc : fletcher16 F 2 150 = (packetOfFrame s.cfg F).calcChecksum := rfl
  rw [hrecv, hcalc]
  simp only [hback, readBack, BitVec.toNat_ofNat, Nat.reducePow]
    at hpayload hts hversion htype hsec hflags hapid hcount hlength hsvc hsub hsrc hctr hccsds hpktVersion hack ⊢
  rw [← unpackTime_packTime] at hts
  have hword := unpackTime_injective s.cfg.tsWidths hts
  simp only [← hapid, ← hcount, ← hlength, ← hsvc, ← hsub, ← hsrc, ← hctr, BitVec.toNat_ofNat, Nat.reducePow,
    true_and, and_true]
  exact ⟨fun i hi => (hpayload i hi).symm, hword.symm, by omega, hpad147, by omega, by omega⟩

end Sys2Proof.Machine

/-! ### Encoding what was decoded (R139, R102) -/

namespace Sys2Proof.Machine

/-- A frame is its checksum bytes and the bytes [2,152). -/
theorem checksumBytes_append_drop (c : Config) {F : Bytes} (hF : 2 ≤ F.length) :
    checksumBytes c (readChecksum c F) ++ F.drop 2 = F := by
  match F with
  | a :: b :: rest =>
    unfold checksumBytes readChecksum
    split <;> simp [byteAt]

theorem checksumBytes_injective (c : Config) : Function.Injective (checksumBytes c) :=
  Function.LeftInverse.injective (g := readChecksum c) fun k => by
    simpa only [List.append_nil] using readChecksum_frame c k []

theorem drop_encodeFrame (c : Config) (h : Header) (p : Bytes) : (encodeFrame c h p).drop 2 = frameBody c h p :=
  List.drop_left' (length_checksumBytes c _)

/-- An encoded frame with the bytes [2,152) of `F` carries the checksum that is computed of `F`. -/
theorem encodeFrame_of_frameBody {c : Config} {h : Header} {p F : Bytes} (hF : 2 ≤ F.length)
    (hbody : frameBody c h p = F.drop 2) : encodeFrame c h p = checksumBytes c (frameChecksum F) ++ F.drop 2 := by
  have hsum : frameChecksum (0 :: 0 :: F.drop 2) = frameChecksum F := by
    have happend := frameChecksum_append [0, 0] (F.drop 2) (F.take 2) rfl (List.length_take_of_le hF)
    rwa [List.take_append_drop] at happend
  rw [encodeFrame, hbody, hsum]

/-- Such a frame is `F` exactly when `F` carries its computed checksum (R139). -/
theorem encodeFrame_eq_iff {c : Config} {h : Header} {p F : Bytes} (hF : 2 ≤ F.length)
    (hbody : frameBody c h p = F.drop 2) : encodeFrame c h p = F ↔ readChecksum c F = frameChecksum F := by
  have hsplit := checksumBytes_append_drop c hF
  calc encodeFrame c h p = F
      ↔ checksumBytes c (frameChecksum F) ++ F.drop 2 = checksumBytes c (readChecksum c F) ++ F.drop 2 := by
        rw [hsplit, encodeFrame_of_frameBody hF hbody]
    _ ↔ frameChecksum F = readChecksum c F := by
        rw [List.append_cancel_right_eq, (checksumBytes_injective c).eq_iff]
    _ ↔ readChecksum c F = frameChecksum F := eq_comm

/-- Encoding the fields of a decoded frame and decoding again gives the same packet, the checksums apart. -/
theorem packetOfFrame_reencoded {c : Config} (hlayout : c.layout = defaultLayout) (hsum : c.tsWidths.sum = 16) (F : Bytes) :
    ∃ k, packetOfFrame c (encodeFrame c (packetOfFrame c F).header (packetOfFrame c F).payload) =
      { packetOfFrame c F with recvChecksum := k, calcChecksum := k } := by
  obtain ⟨k, hback⟩ := packetOfFrame_encodeFrame hlayout hsum (packetOfFrame c F).header (length_packetOfFrame_payload c F)
  have hfits : (packetOfFrame c F).ts.fits c.tsWidths = true := unpackTime_fits _ _ hsum (BitVec.isLt _)
  exact ⟨k, hback.trans (readBack_header (p := { packetOfFrame c F with recvChecksum := k, calcChecksum := k }) hfits)⟩

/-- Two frames with zero pads whose packets differ in the checksums at most have the same bytes [2,152). -/
theorem drop_two_eq_of_same_fields {c : Config} (hlayout : c.layout = defaultLayout) {E F : Bytes} (hE : E.length = 152)
    (hF : F.length = 152) (hpadE : ZeroPads E) (hpadF : ZeroPads F) {k k' : Word16}
    (hsame : packetOfFrame c E = { packetOfFrame c F with recvChecksum := k, calcChecksum := k' }) :
    E.drop 2 = F.drop 2 := by
  have hbytes := packetOfFrame_bytes hlayout E
  have hfields151 := packetOfFrame_byte151 hlayout E
  have hfields149 := packetOfFrame_byte149 hlayout E
  have hfields145 := packetOfFrame_byte145 hlayout E
  have hts := packetOfFrame_ts hlayout E
  have hpayload : ∀ i < 137, byteAt (packetOfFrame c E).payload i = byteAt E (2 + i) := fun i => byteAt_payload c E
  simp only [hsame, packetOfFrame_bytes hlayout F, packetOfFrame_byte151 hlayout F, packetOfFrame_byte149 hlayout F,
    packetOfFrame_byte145 hlayout F, packetOfFrame_ts hlayout F] at hbytes hfields151 hfields149 hfields145 hts hpayload
  obtain ⟨h150, h148, h146, h144, h143, h142, h141⟩ := hbytes
  obtain ⟨hE151, hE149, hE147⟩ := hpadE
  obtain ⟨hF151, hF149, hF147⟩ := hpadF
  have h151 : byteAt F 151 = byteAt E 151 := BitVec.eq_of_toNat_eq (by omega)
  have h149 : byteAt F 149 = byteAt E 149 := BitVec.eq_of_toNat_eq (by omega)
  have h145 : byteAt F 145 = byteAt E 145 := BitVec.eq_of_toNat_eq (by omega)
  have hword := unpackTime_injective c.tsWidths hts
  have hlowE := (byteAt E 139).isLt
  have hlowF := (byteAt F 139).isLt
  have h140 : byteAt F 140 = byteAt E 140 := BitVec.eq_of_toNat_eq (by omega)
  have h139 : byteAt F 139 = byteAt E 139 := BitVec.eq_of_toNat_eq (by omega)
  have h147 : byteAt F 147 = byteAt E 147 := hF147.trans hE147.symm
  refine ext_byteAt (by rw [List.length_drop, List.length_drop, hE, hF]) fun i hi => ?_
  rw [List.length_drop, hF] at hi
  rw [byteAt_drop, byteAt_drop]
  by_cases hi137 : i < 137
  · exact (hpayload i hi137).symm.trans (byteAt_payload c F hi137)
  · have hlow : 137 ≤ i := Nat.le_of_not_lt hi137
    interval_cases i
    exacts [h139.symm, h140.symm, h141.symm, h142.symm, h143.symm, h144.symm, h145.symm, h146.symm, h147.symm, h148.symm,
      h149.symm, h150.symm, h151.symm]

/-- Two frames that differ in pad bits only decode to packets that differ in the computed checksum only (R102). -/
theorem packetOfFrame_pads {c : Config} (hlayout : c.layout = defaultLayout) {F F' : Bytes}
    (hbytes : ∀ i < 152, i ≠ 147 → i ≠ 149 → i ≠ 151 → byteAt F' i = byteAt F i)
    (h151 : (byteAt F' 151).toNat / 8 = (byteAt F 151).toNat / 8)
    (h149 : (byteAt F' 149).toNat / 64 = (byteAt F 149).toNat / 64) :
    packetOfFrame c F' = { packetOfFrame c F with calcChecksum := frameChecksum F' } := by
  obtain ⟨hversion', htype', hsec'⟩ := packetOfFrame_byte151 hlayout F'
  obtain ⟨hversion, htype, hsec⟩ := packetOfFrame_byte151 hlayout F
  have hflags' := packetOfFrame_byte149 hlayout F'
  have hflags := packetOfFrame_byte149 hlayout F
  have hversion : (packetOfFrame c F').version = (packetOfFrame c F).version := BitVec.eq_of_toNat_eq (by omega)
  have htype : (packetOfFrame c F').pktType = (packetOfFrame c F).pktType := BitVec.eq_of_toNat_eq (by omega)
  have hsec : (packetOfFrame c F').secHdrFlag = (packetOfFrame c F).secHdrFlag := BitVec.eq_of_toNat_eq (by omega)
  have hflags : (packetOfFrame c F').seqFlags = (packetOfFrame c F).seqFlags := BitVec.eq_of_toNat_eq (by omega)
  have hkeep : ∀ (pos : FieldPos) (w : Nat), pos.lo.val + w ≤ 8 → pos.byte < 152 →
      pos.byte ≠ 147 ∧ pos.byte ≠ 149 ∧ pos.byte ≠ 151 → readField F' pos w = readField F pos w := by
    intro pos w hw hlt ⟨hne147, hne149, hne151⟩
    rw [readField_inside F' pos w hw, readField_inside F pos w hw, hbytes pos.byte hlt hne147 hne149 hne151]
  have hpayload : (packetOfFrame c F').payload = (packetOfFrame c F).payload :=
    List.map_congr_left fun i hi => by
      have hlt := List.mem_range.mp hi
      rw [byteAt_drop, byteAt_drop, hbytes _ (by omega) (by omega) (by omega) (by omega)]
  have hrecv : readChecksum c F' = readChecksum c F := by
    rw [readChecksum, readChecksum, hbytes 0, hbytes 1] <;> decide
  simp only [packetOfFrame, hlayout, defaultLayout] at hversion htype hsec hflags hpayload ⊢
  simp (disch := decide) only [hkeep, hversion, htype, hsec, hflags, hpayload, hrecv, lengthPos]

/-- Settles O6: with zero pads a frame is determined by its packet; a pad bit is read by the computed checksum alone. -/
theorem encodeInvertsDecodeOnZeroPads : Obligations.EncodeInvertsDecodeOnZeroPads := by
  intro c F q hlayout hsum hdecode
  obtain ⟨hF, rfl⟩ := decodeFrame_some hdecode
  constructor
  · intro h151 h149 h147
    obtain ⟨k, hsame⟩ := packetOfFrame_reencoded hlayout hsum F
    have hdrop := drop_two_eq_of_same_fields hlayout (length_encodeFrame _ _ _) hF (encodeFrame_zeroPads hlayout _ _)
      ⟨h151, h149, h147⟩ hsame
    exact ⟨hdrop, encodeFrame_eq_iff (hF ▸ by decide) ((drop_encodeFrame c _ _).symm.trans hdrop)⟩
  · intro F' hF' hbytes h151 h149
    exact ⟨frameChecksum F', (decodeFrame_of_length hF').trans (congrArg some (packetOfFrame_pads hlayout hbytes h151 h149))⟩

end Sys2Proof.Machine

/-! ### The seven checks and the verdict (R150 to R158, R162) -/

namespace Sys2Proof.Machine

theorem check1_eq_true {p : Packet} : check1 p = true ↔ p.length.toNat + 1 = 152 := beq_iff_eq

theorem check2_eq_true {p : Packet} : check2 p = true ↔ p.recvChecksum = p.calcChecksum := beq_iff_eq

theorem check3_eq_true_toNat {p : Packet} : check3 p = true ↔ p.serviceType.toNat ∈ [1, 3, 5, 6, 9, 69] := by
  rw [check3_eq_true, ← List.mem_map_of_injective BitVec.toNat_injective]
  rfl

/-- What the whitelist of R155 admits for a service type stands in a row of that type, because no type has two rows. -/
theorem mem_subtypesOf_default {c : Config} (hwl : c.subtypeWl = defaultWhitelist) {svc sub : Byte} :
    sub ∈ subtypesOf c svc ↔ ∃ r ∈ defaultWhitelist, r.serviceType = svc ∧ sub ∈ r.subtypes := by
  have hrows : ∀ r ∈ defaultWhitelist, ∀ r' ∈ defaultWhitelist, r.serviceType = r'.serviceType → r = r' := by decide
  unfold subtypesOf
  rw [hwl]
  cases hfind : defaultWhitelist.find? fun r => r.serviceType = svc with
  | none =>
    have hnone : ∀ r ∈ defaultWhitelist, r.serviceType ≠ svc := by simpa using List.find?_eq_none.mp hfind
    simp only [Option.map_none, Option.getD_none, List.not_mem_nil, false_iff]
    rintro ⟨r, hr, hsvc, -⟩
    exact hnone r hr hsvc
  | some row =>
    have hmem := List.mem_of_find?_eq_some hfind
    have hrow : row.serviceType = svc := by simpa using List.find?_some hfind
    simp only [Option.map_some, Option.getD_some]
    constructor
    · exact fun hsub => ⟨row, hmem, hrow, hsub⟩
    · rintro ⟨r, hr, hsvc, hsub⟩
      exact hrows r hr row hmem (hsvc.trans hrow.symm) ▸ hsub

/-- Check 4 under the whitelist of R155. -/
theorem check4_default {c : Config} (hwl : c.subtypeWl = defaultWhitelist) {p : Packet} :
    check4 c p = true ↔
      (p.serviceType.toNat = 1 ∧ p.serviceSubType.toNat ∈ [1, 2, 7, 8]) ∨
        (p.serviceType.toNat = 3 ∧ p.serviceSubType.toNat ∈ [10, 12, 25, 26]) ∨
        (p.serviceType.toNat = 5 ∧ p.serviceSubType.toNat ∈ [1, 2, 3, 4]) ∨
        (p.serviceType.toNat = 6 ∧ p.serviceSubType.toNat ∈ [6, 10]) ∨
        (p.serviceType.toNat = 9 ∧ p.serviceSubType.toNat = 2) ∨
        (p.serviceType.toNat = 69 ∧ p.serviceSubType.toNat = 4) := by
  rw [check4_eq_true, mem_subtypesOf_default hwl]
  simp [defaultWhitelist, BitVec.toNat_eq, eq_comm (b := p.serviceType.toNat)]

/-- Check 5: the four service types with an expected identity, R156. -/
theorem check5_eq_true {c : Config} {p : Packet} :
    check5 c p = true ↔
      (p.serviceType.toNat = 3 → p.apid = c.expectedApid.hk) ∧ (p.serviceType.toNat = 6 → p.apid = c.expectedApid.mem) ∧
        (p.serviceType.toNat = 9 → p.apid = c.expectedApid.time) ∧
        (p.serviceType.toNat = 69 → p.apid = c.expectedApid.sched) := by
  unfold check5 expectedApid
  simp only [BitVec.toNat_eq (x := p.serviceType)]
  split_ifs <;> simp_all

theorem memId_default {c : Config} (hmem : c.memFields = defaultMemFields) (p : Packet) :
    memId c p = byteAt p.payload 136 := by
  rw [memId, hmem]
  rfl

/-- The memory address of R103: four bytes do not reach its width. -/
theorem memAddr_default {c : Config} (hmem : c.memFields = defaultMemFields) (p : Packet) :
    memAddr c p = (byteAt p.payload 135).toNat * 2 ^ 24 + (byteAt p.payload 134).toNat * 2 ^ 16 +
      (byteAt p.payload 133).toNat * 2 ^ 8 + (byteAt p.payload 132).toNat := by
  have hvalue : memAddr c p = bytesValue [byteAt p.payload 135, byteAt p.payload 134, byteAt p.payload 133,
      byteAt p.payload 132] % 2 ^ 32 := by
    rw [memAddr, hmem]
    rfl
  rw [hvalue]
  simp only [bytesValue, List.foldl_cons, List.foldl_nil]
  omega

/-- Check 6 with the memory fields of R103: the bounds of R157. -/
theorem check6_default {c : Config} (hmem : c.memFields = defaultMemFields) {p : Packet} :
    check6 c p = true ↔
      (p.serviceType.toNat = 6 → (byteAt p.payload 136).toNat ≤ 1 ∧ ((byteAt p.payload 136).toNat = 1 →
        (byteAt p.payload 135).toNat * 2 ^ 24 + (byteAt p.payload 134).toNat * 2 ^ 16 +
          (byteAt p.payload 133).toNat * 2 ^ 8 + (byteAt p.payload 132).toNat ≤ 0xFFFFF)) := by
  have hsvc : p.serviceType = 6 ↔ p.serviceType.toNat = 6 := BitVec.toNat_eq
  rw [check6, memId_default hmem, memAddr_default hmem]
  split_ifs with h6
  · simp only [Bool.or_eq_true, Bool.and_eq_true, beq_iff_eq, decide_eq_true_eq, BitVec.toNat_eq, hsvc.mp h6, forall_const,
      BitVec.ofNat_eq_ofNat, BitVec.toNat_ofNat]
    omega
  · simp [mt hsvc.mpr h6]

theorem check7_eq_true {p : Packet} : check7 p = true ↔ p.version = 1 ∧ p.ccsdsFlag = 1 ∧ p.pktVersion = 1 := by
  simp only [check7, Bool.and_eq_true, beq_iff_eq, and_assoc]

/-- The verdict check by check, R150: the reason of the first that fails, `Ok` when none does. -/
theorem verifyPacket_first_failure (c : Config) (p : Packet) :
    (¬check1 p = true → verifyPacket c p = .reject .lengthMismatch) ∧
      (check1 p = true → ¬check2 p = true → verifyPacket c p = .reject .checksumMismatch) ∧
      (check1 p = true → check2 p = true → ¬check3 p = true → verifyPacket c p = .reject .unknownServiceType) ∧
      (check1 p = true → check2 p = true → check3 p = true → ¬check4 c p = true →
        verifyPacket c p = .reject .unknownSubType) ∧
      (check1 p = true → check2 p = true → check3 p = true → check4 c p = true → ¬check5 c p = true →
        verifyPacket c p = .reject .invalidApid) ∧
      (check1 p = true → check2 p = true → check3 p = true → check4 c p = true → check5 c p = true →
        ¬check6 c p = true → verifyPacket c p = .reject .invalidMemoryAddress) ∧
      (check1 p = true → check2 p = true → check3 p = true → check4 c p = true → check5 c p = true →
        check6 c p = true → ¬check7 p = true → verifyPacket c p = .reject .versionMismatch) ∧
      (check1 p = true → check2 p = true → check3 p = true → check4 c p = true → check5 c p = true →
        check6 c p = true → check7 p = true → verifyPacket c p = .ok) := by
  simp +contextual [verifyPacket]

theorem exec_verify (p : Packet) (s : State) : exec (.verify p) s = execVerify p s := rfl

/-- Settles O10: each check is what its rule states, and the verdict is the reason of the first that fails. -/
theorem verifyReportsTheFirstFailure : Obligations.VerifyReportsTheFirstFailure := by
  intro p s hwl hmem
  refine ⟨verifyPacket s.cfg p, exec_verify p s, ?_⟩
  have hclauses := verifyPacket_first_failure s.cfg p
  rwa [check1_eq_true, check2_eq_true, check3_eq_true_toNat, check4_default hwl, check5_eq_true, check6_default hmem,
    check7_eq_true] at hclauses

section SameForVerify

variable {c : Config} {p q : Packet}

/-- Check 5 reads the sender identity outside service types 1 and 5 only, R156. -/
theorem SameForVerify.check5_eq (h : SameForVerify c p q) : check5 c p = check5 c q := by
  rcases h.apid with h1 | h5 | hapid
  · simp [check5, expectedApid, ← h.serviceType, h1]
  · simp [check5, expectedApid, ← h.serviceType, h5]
  · simp only [check5, h.serviceType, hapid]

/-- Check 6 reads the memory id and address for service type 6 only, R157. -/
theorem SameForVerify.check6_eq (h : SameForVerify c p q) : check6 c p = check6 c q := by
  unfold check6
  rw [← h.serviceType]
  split_ifs with h6
  · obtain ⟨hid, haddr⟩ := h.memory h6
    rw [hid, haddr]
  · rfl

end SameForVerify

/-- Settles O11: each check reads fields on which the two packets agree. -/
theorem verdictIgnoresUncheckedFields : Obligations.VerdictIgnoresUncheckedFields := by
  intro c p q h
  have h1 : check1 p = check1 q := by simp only [check1, declaredLen, h.length]
  have h2 : check2 p = check2 q := by simp only [check2, h.recvChecksum, h.calcChecksum]
  have h3 : check3 p = check3 q := by simp only [check3, h.serviceType]
  have h4 : check4 c p = check4 c q := by simp only [check4, h.serviceType, h.serviceSubType]
  have h7 : check7 p = check7 q := by simp only [check7, h.version, h.ccsdsFlag, h.pktVersion]
  simp only [verifyPacket, h1, h2, h3, h4, h.check5_eq, h.check6_eq, h7]

end Sys2Proof.Machine

/-! ### `RX` of a verified frame (R159, R171, R174) -/

namespace Sys2Proof.Machine

theorem exec_rx (B : Bytes) (s : State) : exec (.rx B) s = .next (runRx B s) := rfl

theorem dispatch_of_dispatchOpOf {p : Packet} {op : DispatchOp} (h : dispatchOpOf (selector p) = some op) (s : State) :
    dispatch p s = runDispatchOp op p s := by
  simp only [dispatch, h]

/-- What `RX` of a verified frame does: the latch, the archive and `VerifyOk`, then the dispatch, in one step. -/
theorem runRx_of_verified {B : Bytes} {p : Packet} {s : State} (hdecode : decodeFrame s.cfg B = some p)
    (hok : verifyPacket s.cfg p = .ok) :
    runRx B s = dispatch p (emitLog .verifyOk (loadPkt p (loadFrame B (emitArchive B s)))) := by
  rw [runRx_of_decodeFrame hdecode, hok]
  rfl

/-- Settles O15: the dispatch of a verified frame is the operation that its selector names. -/
theorem rxPerformsTheSelectedOperation : Obligations.RxPerformsTheSelectedOperation := by
  intro B s p op hdecode hok hop
  refine ⟨_, exec_dispatchInstr op p _, ?_⟩
  rw [exec_rx, runRx_of_verified hdecode hok, dispatch_of_dispatchOpOf hop]
  rfl

end Sys2Proof.Machine

/-! ### The packetizer (R200 to R206) -/

namespace Sys2Proof.Machine

theorem exec_tc (sender dest svc sub k : Byte) (n : Nat) (appData : Bytes) (s : State) :
    exec (.tc sender dest svc sub k n appData) s = execTc sender dest svc sub k n appData s := rfl

/-- The precondition of R201 without the rounding: the data fill all frames but the last and leave none empty. -/
theorem tcAdmitted_iff {n len : Nat} :
    tcAdmitted n len = true ↔ 1 ≤ n ∧ n ≤ 255 ∧ len ≤ 137 * n ∧ (n = 1 ∨ 137 * (n - 1) < len) := by
  simp only [tcAdmitted, framesNeeded, Bool.and_eq_true, decide_eq_true_eq, beq_iff_eq]
  omega

theorem byteAt_of_length_le {b : Bytes} {i : Nat} (h : b.length ≤ i) : byteAt b i = 0 := by
  simp [byteAt, List.getElem?_eq_none h]

theorem firstBytes_add (m n : Nat) (b : Bytes) :
    firstBytes (m + n) b = firstBytes m b ++ (List.range n).map fun j => byteAt b (m + j) := by
  simp [firstBytes, List.range_add]

/-- The copy loop of R202 fills up with zeros. -/
theorem firstBytes_of_length_le {n : Nat} {b : Bytes} (h : b.length ≤ n) :
    firstBytes n b = b ++ List.replicate (n - b.length) 0 := by
  obtain ⟨k, rfl⟩ := Nat.exists_eq_add_of_le h
  have hzeros : (List.range k).map (fun j => byteAt b (b.length + j)) = List.replicate k 0 := by
    simp [byteAt_of_length_le]
  rw [firstBytes_add, firstBytes_of_length rfl, hzeros, Nat.add_sub_cancel_left]

/-! The frames of a request -/

@[simp] theorem length_tcPayload (appData : Bytes) (i : Nat) : (tcPayload appData i).length = 137 := by
  simp [tcPayload]

theorem byteAt_tcPayload (appData : Bytes) (i : Nat) {j : Nat} (h : j < 137) :
    byteAt (tcPayload appData i) j = byteAt appData (137 * i + j) := by
  simp [tcPayload, byteAt, h]

/-- The payloads of the first `n` frames are the data, filled up with zeros or cut, R202. -/
theorem flatten_tcPayload (appData : Bytes) (n : Nat) :
    ((List.range n).map (tcPayload appData)).flatten = firstBytes (137 * n) appData := by
  induction n with
  | zero => rfl
  | succ n ih =>
    rw [List.range_succ, List.map_append, List.flatten_append, ih, Nat.mul_succ, firstBytes_add]
    simp [tcPayload]

/-- The packet that frame `i` of a `TC` decodes to: its header fields and its piece of the data, with equal checksums. -/
def tcPacket (c : Config) (t : Time) (sender dest svc sub k : Byte) (n : Nat) (appData : Bytes) (i : Nat) : Packet :=
  let h := tcHeader c t sender dest svc sub k n i
  let ck := frameChecksum (0 :: 0 :: frameBody c h (tcPayload appData i))
  readBack c h (tcPayload appData i) ck ck

theorem decodeFrame_tcFrames {c : Config} (hc : c.wf = true) (t : Time) (sender dest svc sub k : Byte) (n : Nat)
    (appData : Bytes) :
    (tcFrames c t sender dest svc sub k n appData).map (decodeFrame c) =
      ((List.range n).map (tcPacket c t sender dest svc sub k n appData)).map some := by
  rw [tcFrames, List.map_map, List.map_map]
  exact List.map_congr_left fun i _ => decodeFrame_encodeFrame hc _ (length_tcPayload appData i)

/-- Up to 255 frames the sequence counts are not reduced, R203. -/
theorem toNat_tcPacket_seqCount (c : Config) (t : Time) (sender dest svc sub k : Byte) {n i : Nat} (appData : Bytes)
    (hn : n ≤ 255) (hi : i < n) : (tcPacket c t sender dest svc sub k n appData i).seqCount.toNat = i + 1 := by
  have hcount : (tcPacket c t sender dest svc sub k n appData i).seqCount = BitVec.ofNat 8 (i + 1) := rfl
  rw [hcount, BitVec.toNat_ofNat]
  omega

/-- Settles O32: every frame decodes to the read-back of its header and piece, and the pieces are the cuts of one list. -/
theorem tcFramesCarryTheWholeData : Obligations.TcFramesCarryTheWholeData := by
  intro sender dest svc sub k n appData s t hc h
  rw [exec_tc] at h
  obtain ⟨hadmitted, rfl⟩ := execTc_next h
  obtain ⟨-, hn, hlen, -⟩ := tcAdmitted_iff.mp hadmitted
  refine ⟨_, _, rfl, decodeFrame_tcFrames hc s.lt sender dest svc sub k n appData, ?_, ?_, ?_⟩
  · intro q hq
    obtain ⟨i, -, rfl⟩ := List.mem_map.mp hq
    exact ⟨rfl, rfl⟩
  · rw [List.map_map]
    exact List.map_congr_left fun i hi =>
      toNat_tcPacket_seqCount s.cfg s.lt sender dest svc sub k appData hn (List.mem_range.mp hi)
  · rw [List.map_map, ← firstBytes_of_length_le hlen, ← flatten_tcPayload]
    rfl

/-- Settles O30: outside the precondition `execTc` is refused. -/
theorem tcOutsidePreconditionIsRefused : Obligations.TcOutsidePreconditionIsRefused := by
  intro sender dest svc sub k n appData s hout
  rw [exec_tc, execTc, if_neg (mt tcAdmitted_iff.mp hout)]

/-- The sequence flags of frame `i`, R203: alone, first, last, between. -/
theorem tcSeqFlags_spec (n i : Nat) :
    (n = 1 → tcSeqFlags n i = 0b11) ∧ (1 < n → i = 0 → tcSeqFlags n i = 0b01) ∧
      (1 < n → i = n - 1 → tcSeqFlags n i = 0b10) ∧ (0 < i → i < n - 1 → tcSeqFlags n i = 0b00) := by
  unfold tcSeqFlags
  refine ⟨fun h => if_pos h, fun h h0 => ?_, fun h hlast => ?_, fun h0 hlast => ?_⟩
  · rw [if_neg (by omega), if_pos h0]
  · rw [if_neg (by omega), if_neg (by omega), if_pos hlast]
  · rw [if_neg (by omega), if_neg (by omega), if_neg (by omega)]

/-- Settles O31: the frames are those of `tcFrames`, one for each index below `numPackets`. -/
theorem tcEmitsItsFrames : Obligations.TcEmitsItsFrames := by
  intro sender dest svc sub k n appData s h1 hn hlen hlast htype
  refine ⟨tcFrames s.cfg s.lt sender dest svc sub k n appData, by simp [tcFrames], ?_, fun i hi => ?_⟩
  · rw [exec_tc, execTc, if_pos (tcAdmitted_iff.mpr ⟨h1, hn, hlen, hlast⟩)]
    rfl
  · obtain ⟨halone, hfirst, hend, hbetween⟩ := tcSeqFlags_spec n i
    refine ⟨tcPayload appData i, tcSeqFlags n i, length_tcPayload appData i, fun j hj => ?_, halone, hfirst, hend, hbetween, ?_⟩
    · rw [byteAt_tcPayload appData i hj]
      split
      · rfl
      · exact byteAt_of_length_le (by omega)
    · simp [tcFrames, hi, tcHeader, htype]

end Sys2Proof.Machine

/-! ### The dispatch operations (R174 to R199) -/

namespace Sys2Proof.Machine

/-! `RX` of a frame that is not dispatched (R172, R173) -/

/-- Settles O13: such a byte list decodes to nothing. -/
theorem rxWrongLengthIsArchivedAndLogged : Obligations.RxWrongLengthIsArchivedAndLogged := by
  intro B s hlen
  rw [exec_rx, runRx_of_decodeFrame_none (decodeFrame_eq_none.mpr hlen)]
  rfl

/-- Settles O14: the verdict routes the packet to the log. -/
theorem rxRejectedFrameIsDropped : Obligations.RxRejectedFrameIsDropped := by
  intro B s p r hdecode hreject
  rw [exec_rx, runRx_of_decodeFrame hdecode, hreject]
  rfl

/-! What the shared meanings emit -/

theorem forwardEnvelope_eq_forwarded (c : Consumer) (p : Packet) (s : State) :
    forwardEnvelope c p s = forwarded c (envelope s.cfg p) s := rfl

theorem alertingEvent_spec (n : Byte) (p : Packet) (s : State) :
    ∃ E, IsAlert s.cfg.codes.eventAlert n p E ∧
      alertingEvent n p s = forwarded .fdir E (logged (.eventReport p) s) :=
  ⟨_, alert_spec _ n p, rfl⟩

theorem failureReport_spec (n : Byte) (p : Packet) (s : State) :
    ∃ E, IsAlert s.cfg.codes.tcVerifyFailed n p E ∧
      failureReport n p s = forwarded .fdir E (logged (.tcVerifyFailure n) s) :=
  ⟨_, alert_spec _ n p, rfl⟩

/-- A housekeeping packet's envelope has its subtype in byte 146 and, not being a memory packet's, zero in byte 145. -/
theorem forwardEnvelope_hk_spec {p : Packet} (hsvc : p.serviceType = 3) (s : State) :
    ∃ E, IsEnvelope s.cfg p E ∧ byteAt E 146 = p.serviceSubType ∧ byteAt E 145 = 0 ∧
      forwardEnvelope .hk p s = forwarded .hk E s := by
  have henv := envelope_spec s.cfg p
  obtain ⟨-, -, hmemId⟩ := henv.plain (by rw [hsvc]; decide)
  exact ⟨_, henv, henv.code, hmemId, forwardEnvelope_eq_forwarded .hk p s⟩

/-- Settles O19: the four operations are one forward. -/
theorem housekeepingIsForwarded : Obligations.HousekeepingIsForwarded := by
  intro p s i n hi hsvc hsub
  obtain ⟨E, henv, hcode, hmemId, hforward⟩ := forwardEnvelope_hk_spec hsvc s
  have hexec : exec i s = .next (forwardEnvelope .hk p s) := by
    simp only [List.mem_cons, Prod.mk.injEq, List.not_mem_nil, or_false] at hi
    obtain ⟨rfl, -⟩ | ⟨rfl, -⟩ | ⟨rfl, -⟩ | ⟨rfl, -⟩ := hi <;> rfl
  exact ⟨E, henv, hcode.trans hsub, hmemId, hexec.trans (congrArg _ hforward)⟩

theorem exec_fdirFwd (p : Packet) (s : State) : exec (.fdirFwd p) s = .next (forwardEnvelope .fdir p s) := rfl

/-- Settles O20: the operation is the forward, and what is forwarded is the envelope. -/
theorem fdirPacketIsForwarded : Obligations.FdirPacketIsForwarded := fun p s =>
  ⟨_, envelope_spec s.cfg p, (exec_fdirFwd p s).trans (congrArg _ (forwardEnvelope_eq_forwarded .fdir p s))⟩

/-- Settles O21: the meaning of `EVT.1` is the one log entry. -/
theorem normalEventIsLogged : Obligations.NormalEventIsLogged := fun _ _ => rfl

/-- Settles O22: each of the three operations is the alerting event of its subtype. -/
theorem failureEventAlertsFdir : Obligations.FailureEventAlertsFdir := by
  intro p s i n hi
  obtain ⟨E, halert, hevent⟩ := alertingEvent_spec n p s
  have hexec : exec i s = .next (alertingEvent n p s) := by
    simp only [List.mem_cons, Prod.mk.injEq, List.not_mem_nil, or_false] at hi
    obtain ⟨rfl, rfl⟩ | ⟨rfl, rfl⟩ | ⟨rfl, rfl⟩ := hi <;> rfl
  exact ⟨E, halert, hexec.trans (congrArg _ hevent)⟩

/-- Settles O23: both operations are the failure report of the packet's subtype. -/
theorem failureReportAlertsFdir : Obligations.FailureReportAlertsFdir := by
  intro p s i n hi hsub
  obtain ⟨E, halert, hreport⟩ := failureReport_spec n p s
  have hexec : exec i s = .next (failureReport n p s) := by
    simp only [List.mem_cons, Prod.mk.injEq, List.not_mem_nil, or_false] at hi
    obtain ⟨rfl, rfl⟩ | ⟨rfl, rfl⟩ := hi
    · exact hsub ▸ rfl
    · rfl
  exact ⟨E, halert, hexec.trans (congrArg _ hreport)⟩

/-! The success reports (R179, R181, R183, R243) -/

theorem exec_successReport {p : Packet} {i : Instr} {completion : Bool}
    (h : (i, completion) ∈ [(Instr.tcvAccOk p, false), (.tcvExeOk p, true)]) (s : State) :
    exec i s = .next (successReport completion p s) := by
  simp only [List.mem_cons, Prod.mk.injEq, List.not_mem_nil, or_false] at h
  obtain ⟨rfl, rfl⟩ | ⟨rfl, rfl⟩ := h <;> rfl

/-- The fields of a report where P9 has them by default (R103, D16). -/
theorem tcvFields_default {c : Config} (h : c.tcvFields = defaultTcvFields) (p : Packet) :
    tcvDestApid c p = byteAt p.payload 135 ∧
      (tcvPacketId c p).toNat = (byteAt p.payload 136).toNat * 256 + (byteAt p.payload 135).toNat ∧
      (tcvPsc c p).toNat = (byteAt p.payload 134).toNat * 256 + (byteAt p.payload 133).toNat := by
  rw [tcvDestApid, tcvPacketId, tcvPsc, h]
  exact ⟨rfl, toNat_word16 _ _, toNat_word16 _ _⟩

theorem successReport_of_none {p : Packet} {s : State} (h : serviceOfApid s.cfg (tcvDestApid s.cfg p) = none)
    (completion : Bool) : successReport completion p s = logged (.error .unknownVerifyDestination) s := by
  simp only [successReport, h]
  rfl

theorem successReport_of_some {p : Packet} {s : State} {sv : Service}
    (h : serviceOfApid s.cfg (tcvDestApid s.cfg p) = some sv) (completion : Bool) :
    successReport completion p s =
      signal sv (setTcv sv (reportSuccess completion (tcvPacketId s.cfg p) (tcvPsc s.cfg p) (s.tcv.get sv)) s) := by
  simp only [successReport, h]

/-- After a success report a cell is satisfied unless it still waits for the completion (R241). -/
theorem satisfied_reportSuccess (completion : Bool) (pid psc : Word16) (sv : Service) (s : State) :
    satisfied (setTcv sv (reportSuccess completion pid psc (s.tcv.get sv)) s) sv = true ↔
      (s.gate.get sv).twoPhase = false ∨ completion = true ∨ (s.tcv.get sv).executeReceived = true := by
  simp [satisfied, reportSuccess]

/-- A report that ends no wait is the write of the entry. -/
theorem signal_of_not_ended {sv : Service} {s : State} (h : ¬ ((s.gate.get sv).waiting = true ∧ satisfied s sv = true)) :
    signal sv s = s := by
  obtain ⟨hw, hsat, -⟩ | ⟨-, hsignal⟩ := signal_cases sv s
  · exact absurd ⟨hw, hsat⟩ h
  · exact hsignal

theorem signal_of_ended {sv : Service} {s : State} (hw : (s.gate.get sv).waiting = true) (hsat : satisfied s sv = true) :
    signal sv s = gateSuccess sv s := by
  obtain ⟨-, -, hsignal⟩ | ⟨hn, -⟩ := signal_cases sv s
  · exact hsignal
  · exact absurd ⟨hw, hsat⟩ hn

/-- Settles O26: the look-up of the destination fails. -/
theorem unknownDestinationIsLogged : Obligations.UnknownDestinationIsLogged := by
  intro p s i hi hfields hnone
  obtain ⟨hdest, -, -⟩ := tcvFields_default hfields p
  rw [← hdest] at hnone
  have hlogged := successReport_of_none hnone
  simp only [List.mem_cons, List.not_mem_nil, or_false] at hi
  obtain rfl | rfl := hi
  · exact congrArg _ (hlogged false)
  · exact congrArg _ (hlogged true)

/-- Settles O24: the cell does not wait, or is not satisfied, so the signal does nothing. -/
theorem successReportSetsTheFlags : Obligations.SuccessReportSetsTheFlags := by
  intro p s sv i completion hi hfields hsv hcell
  obtain ⟨hdest, hpid, hpsc⟩ := tcvFields_default hfields p
  rw [← hdest] at hsv
  refine ⟨reportSuccess completion (tcvPacketId s.cfg p) (tcvPsc s.cfg p) (s.tcv.get sv), rfl, ?_, hpid, hpsc, ?_⟩
  · simp [reportSuccess]
  · rw [exec_successReport hi, successReport_of_some hsv, signal_of_not_ended]
    · rfl
    · rw [satisfied_reportSuccess]
      rintro ⟨hw, hsat⟩
      obtain hidle | ⟨htwo, hacc, hexe⟩ := hcell
      · exact absurd (hidle.symm.trans hw) (by decide)
      · simp [htwo, hacc, hexe] at hsat

/-- Settles O25: the report satisfies the waiting cell, so the signal is the success of R244. -/
theorem successReportEndsTheWait : Obligations.SuccessReportEndsTheWait := by
  intro p s sv i completion hi hfields hsv hw hsat
  obtain ⟨hdest, hpid, hpsc⟩ := tcvFields_default hfields p
  rw [← hdest] at hsv
  refine ⟨tcvPacketId s.cfg p, tcvPsc s.cfg p, hpid, hpsc, ?_⟩
  have hended := (satisfied_reportSuccess completion (tcvPacketId s.cfg p) (tcvPsc s.cfg p) sv s).mpr hsat
  rw [exec_successReport hi, successReport_of_some hsv, signal_of_ended (by simpa using hw) hended, gateSuccess_eq]
  simp [reportSuccess, setTcv]

/-! The feed of a reassembler (R192, R193, R195, R220) -/

/-- The reassembler operation of a packet's flags is the feed (R108, R220). -/
theorem exec_of_isFeedOf {k : Reasm} {p : Packet} {j : Instr} {s : State} (h : IsFeedOf s.cfg k p j) :
    exec j s = .next (feedReasm k p s) := by
  obtain ⟨frag, rfl, ⟨hflags, rfl⟩ | ⟨hflags, rfl⟩ | ⟨hflags, rfl⟩ | ⟨hflags, rfl⟩⟩ := h <;>
    · rw [feedReasm, hflags]
      rfl

theorem feedByConfig_of_some {p : Packet} {s : State} {k : Reasm} (h : reasmOf s.cfg p = some k) :
    feedByConfig p s = feedReasm k p s := by
  simp only [feedByConfig, h]

theorem feedByConfig_of_none {p : Packet} {s : State} (h : reasmOf s.cfg p = none) : feedByConfig p s = s := by
  simp only [feedByConfig, h]

/-- A pair that the feed names: the forward, then the reassembler operation of the flags. -/
theorem feed_forward_of_some {p : Packet} {s : State} {k : Reasm} {j : Instr} (hk : reasmOf s.cfg p = some k)
    (hj : IsFeedOf s.cfg k p j) (c : Consumer) :
    exec j (forwarded c (envelope s.cfg p) s) = .next (feedByConfig p (forwardEnvelope c p s)) := by
  rw [feedByConfig_of_some (s := forwardEnvelope c p s) hk]
  exact exec_of_isFeedOf (s := forwarded c (envelope s.cfg p) s) hj

/-- A pair that the feed does not name is forwarded only. -/
theorem feed_forward_of_none {p : Packet} {s : State} (h : reasmOf s.cfg p = none) (c : Consumer) :
    feedByConfig p (forwardEnvelope c p s) = forwarded c (envelope s.cfg p) s :=
  feedByConfig_of_none (s := forwardEnvelope c p s) h

/-- The default feed, D21. -/
theorem reasmOf_default {c : Config} (hfeed : c.reasmFeed = defaultFeed) {p : Packet} {svc sub : Byte}
    (hsvc : p.serviceType = svc) (hsub : p.serviceSubType = sub) :
    reasmOf c p = (defaultFeed.find? fun r => r.serviceType = svc ∧ r.serviceSubType = sub).map FeedRow.reasm := by
  rw [reasmOf, hfeed, hsvc, hsub]

/-- Settles O27: each operation is the forward and the feed. -/
theorem fragmentsAreForwardedAndFed : Obligations.FragmentsAreForwardedAndFed := by
  refine ⟨fun p s i j c k hi hk hj => ?_, fun c p => ⟨fun hfeed => ⟨fun hsvc hsub => ?_, fun hsvc hsub => ?_⟩, ?_⟩⟩
  · refine ⟨_, _, envelope_spec s.cfg p, feed_forward_of_some hk hj c, ?_⟩
    obtain ⟨rfl, rfl, -⟩ | ⟨rfl, rfl, -⟩ | ⟨rfl, rfl, -⟩ := hi <;> rfl
  · exact (reasmOf_default hfeed hsvc hsub).trans rfl
  · exact (reasmOf_default hfeed hsvc hsub).trans rfl
  · exact fun hslice hlen => fragment_defaultFragSlice hslice hlen

/-- Settles O28: the feed is the only part of the three operations beside the forward. -/
theorem memoryCheckIsForwardedOnly : Obligations.MemoryCheckIsForwardedOnly := by
  refine fun p s => ⟨fun hfeed hsvc hsub => (reasmOf_default hfeed hsvc hsub).trans rfl, fun i c hi hnone => ?_⟩
  refine ⟨_, envelope_spec s.cfg p, Eq.trans ?_ (congrArg _ (feed_forward_of_none hnone c))⟩
  obtain ⟨rfl, rfl, -⟩ | ⟨rfl, rfl, -⟩ | ⟨rfl, rfl, -⟩ := hi <;> rfl

/-! The branches of the service types (R174) -/

section Branch

variable {p : Packet} {s : State}

theorem dispatch_of_unlisted (h : dispatchOpOf (selector p) = none) : dispatch p s = runBranch p s := by
  simp only [dispatch, h]

theorem runBranch_tcv (h : p.serviceType = 1) : runBranch p s = s := by simp [runBranch, h]

theorem runBranch_hk (h : p.serviceType = 3) : runBranch p s = forwardEnvelope .hk p s := by simp [runBranch, h]

theorem runBranch_normalEvent (h : p.serviceType = 5) (hsub : p.serviceSubType.toNat ≤ 1) :
    runBranch p s = logged (.eventReport p) s := by
  simp only [runBranch, h, if_neg (Nat.not_lt.mpr hsub)]
  rfl

theorem runBranch_alertingEvent (h : p.serviceType = 5) (hsub : 1 < p.serviceSubType.toNat) :
    runBranch p s = alertingEvent p.serviceSubType p s := by
  simp [runBranch, h, hsub]

theorem runBranch_mem (h : p.serviceType = 6) : runBranch p s = feedByConfig p (forwardEnvelope .mem p s) := by
  simp [runBranch, h]

theorem runBranch_time (h : p.serviceType = 9) : runBranch p s = timesync p s := by simp [runBranch, h]

theorem runBranch_sched (h : p.serviceType = 69) : runBranch p s = feedByConfig p (forwardEnvelope .sched p s) := by
  simp [runBranch, h]

end Branch

/-- Settles O17: after `VerifyOk` the step is the branch of the service type. -/
theorem unlistedPairsFollowTheirBranch : Obligations.UnlistedPairsFollowTheirBranch := by
  intro B s p hdecode hok hunlisted
  refine ⟨emitLog .verifyOk (loadPkt p (loadFrame B (emitArchive B s))), rfl, ?_⟩
  generalize hu : emitLog .verifyOk (loadPkt p (loadFrame B (emitArchive B s))) = u
  have hcfg : u.cfg = s.cfg := hu ▸ rfl
  have hrx : exec (.rx B) s = .next (runBranch p u) := by
    rw [exec_rx, runRx_of_verified hdecode hok, dispatch_of_unlisted hunlisted, hu]
  rw [hrx, ← hcfg]
  refine ⟨fun h => by rw [runBranch_tcv h], fun h => ?_, fun h hsub => by rw [runBranch_normalEvent h hsub],
    fun h hsub => ?_, fun h hnone => ?_, fun h => by rw [runBranch_time h]; rfl, fun h hnone => ?_,
    fun k j hk hj => ⟨fun h => ?_, fun h => ?_⟩⟩
  · rw [runBranch_hk h]
    exact ⟨_, envelope_spec u.cfg p, rfl⟩
  · obtain ⟨E, halert, hevent⟩ := alertingEvent_spec p.serviceSubType p u
    exact ⟨E, halert, by rw [runBranch_alertingEvent h hsub, hevent]⟩
  · rw [runBranch_mem h, feed_forward_of_none hnone]
    exact ⟨_, envelope_spec u.cfg p, rfl⟩
  · rw [runBranch_sched h, feed_forward_of_none hnone]
    exact ⟨_, envelope_spec u.cfg p, rfl⟩
  · exact ⟨_, _, envelope_spec u.cfg p, feed_forward_of_some hk hj .mem, by rw [runBranch_mem h]⟩
  · exact ⟨_, _, envelope_spec u.cfg p, feed_forward_of_some hk hj .sched, by rw [runBranch_sched h]⟩

end Sys2Proof.Machine

/-! ### The local time (R194, R196, R207, R208) -/

namespace Sys2Proof.Machine

/-- A set of services without repeats is told once each, R208. -/
theorem replicate_count_services {l : List Service} (hl : l.Nodup) (b : Bool) (sv : Service) (t : Time) :
    List.replicate (if b then l.count sv else 0) t = if sv ∈ l ∧ b = true then [t] else [] := by
  rw [hl.count]
  cases b <;> by_cases h : sv ∈ l <;> simp [h]

theorem adoptedTime_of_fits {w : TimeWidths} {t : Time} (h : t.fits w = true) : adoptedTime w t = t := by
  simp only [Time.fits, Bool.and_eq_true, decide_eq_true_eq] at h
  obtain ⟨⟨⟨hday, hhour⟩, hminute⟩, hsecond⟩ := h
  rw [adoptedTime, fitTime_of_lt hday, fitTime_of_lt hhour, fitTime_of_lt hminute, fitTime_of_lt hsecond]

theorem timeDelta_eq (t u : Time) :
    timeDelta t u = ((t.day : Int) * 1440 + t.hour * 60 + t.minute) - ((u.day : Int) * 1440 + u.hour * 60 + u.minute) := by
  simp [timeDelta, absMinutes]

theorem exec_time2 (p : Packet) (s : State) : exec (.time2 p) s = .next (timesync p s) := rfl

/-- Settles O29: beyond 90 minutes the operation is the adoption of R265, within them it is nothing. -/
theorem timeReportIsAdoptedBeyondNinetyMinutes : Obligations.TimeReportIsAdoptedBeyondNinetyMinutes := by
  intro p s delta hnodup hfits hdelta
  rw [← timeDelta_eq] at hdelta
  rw [exec_time2, timesync, ← hdelta]
  refine ⟨fun hfar => ?_, fun hlow hhigh => by rw [if_neg (by omega)]⟩
  obtain ⟨b, hadopt, hb⟩ := raiseError_desync_spec p s
  rw [adoptedTime_of_fits hfits] at hadopt hb
  refine ⟨_, b, alert_spec _ 0 p, by rw [if_pos (by omega), hadopt], fun sv => ?_⟩
  rw [hb, replicate_count_services hnodup]

theorem exec_ltSet (d h m sec : Nat) (s : State) :
    exec (.ltSet d h m sec) s = .next (broadcastWrite (setLt (truncTime s.cfg.ltWidths d h m sec) s)) := rfl

/-- Settles O33: the write of `LT`, then the broadcast that goes with it. -/
theorem ltSetWritesAndBroadcasts : Obligations.LtSetWritesAndBroadcasts := by
  rintro d h m sec s t w hnodup rfl rfl
  refine ⟨?_, fun hw => by rw [hw]; rfl⟩
  obtain ⟨b, hwrite, hb⟩ := broadcastWrite_spec (setLt (truncTime s.cfg.ltWidths d h m sec) s)
  refine ⟨b, by rw [exec_ltSet, hwrite]; rfl, fun sv => (hb sv).trans ?_⟩
  exact congrArg _ (replicate_count_services hnodup _ sv _)

theorem exec_bcast (s : State) :
    exec .bcast s = .next (if s.cfg.bcastPolicy.onRequest then emitBcastAll s else s) := rfl

/-- Settles O34: the broadcast where the policy has one on request. -/
theorem bcastSendsTheLocalTime : Obligations.BcastSendsTheLocalTime := by
  intro s hnodup
  rw [exec_bcast]
  simp only [← replicate_count_services hnodup]
  split
  · obtain ⟨b, hall, hb⟩ := emitBcastAll_spec s
    exact ⟨b, congrArg _ hall, hb⟩
  · exact ⟨s.out.bcast, rfl, fun sv => (List.append_nil _).symm⟩

end Sys2Proof.Machine

/-! ### What an `RX` step emits (R171, 60_exceptions.md section 3) -/

namespace Sys2Proof.Machine

/-- What a dispatch emits on the two ports that an `RX` step uses once: nothing on `ARCHIVE`, at most one envelope to FDIR. -/
structure AtMostOneAlert (s t : State) : Prop where
  archive : t.out.archive = s.out.archive
  fdir : ∃ l : List Bytes, t.out.fwd.get .fdir = s.out.fwd.get .fdir ++ l ∧ l.length ≤ 1

section Alerts

variable {s t : State}

theorem AtMostOneAlert.of_eq (ha : t.out.archive = s.out.archive) (hf : t.out.fwd.get .fdir = s.out.fwd.get .fdir) :
    AtMostOneAlert s t := ⟨ha, [], by simp [hf]⟩

/-- One envelope to any consumer. -/
theorem emitFwd_atMostOneAlert (c : Consumer) (E : Bytes) (s : State) : AtMostOneAlert s (emitFwd c E s) := by
  refine ⟨rfl, ?_⟩
  rw [emitFwd_out_fwd, PerConsumer.get_set]
  split
  · rename_i h
    exact ⟨[E], by rw [h], le_rfl⟩
  · exact ⟨[], by simp⟩

/-- A log entry comes before the alert of a report. -/
theorem AtMostOneAlert.after_log {e : LogEvent} (h : AtMostOneAlert (emitLog e s) t) : AtMostOneAlert s t :=
  ⟨h.archive, h.fdir⟩

theorem failureReport_atMostOneAlert (n : Byte) (p : Packet) (s : State) : AtMostOneAlert s (failureReport n p s) :=
  (emitFwd_atMostOneAlert .fdir _ (emitLog _ s)).after_log

theorem alertingEvent_atMostOneAlert (n : Byte) (p : Packet) (s : State) : AtMostOneAlert s (alertingEvent n p s) :=
  (emitFwd_atMostOneAlert .fdir _ (emitLog _ s)).after_log

theorem forwardEnvelope_atMostOneAlert (c : Consumer) (p : Packet) (s : State) :
    AtMostOneAlert s (forwardEnvelope c p s) := emitFwd_atMostOneAlert c _ s

theorem signal_atMostOneAlert (sv : Service) (s : State) : AtMostOneAlert s (signal sv s) := by
  obtain ⟨-, -, h⟩ | ⟨-, h⟩ := signal_cases sv s <;> rw [h] <;> exact .of_eq rfl rfl

theorem successReport_atMostOneAlert (completion : Bool) (p : Packet) (s : State) :
    AtMostOneAlert s (successReport completion p s) := by
  unfold successReport
  split
  · exact .of_eq rfl rfl
  · obtain ⟨harchive, hfdir⟩ := signal_atMostOneAlert _ (setTcv _ _ s)
    exact ⟨harchive, hfdir⟩

theorem timesync_atMostOneAlert (p : Packet) (s : State) : AtMostOneAlert s (timesync p s) := by
  unfold timesync
  split
  · obtain ⟨b, hadopt, -⟩ := raiseError_desync_spec p s
    rw [hadopt]
    exact ⟨rfl, [_], rfl, le_rfl⟩
  · exact .of_eq rfl rfl

theorem violation_atMostOneAlert (k : Reasm) (src : Packet) (s : State) : AtMostOneAlert s (violation k src s) := by
  obtain ⟨harchive, hfdir⟩ := emitFwd_atMostOneAlert .fdir
    (alert s.cfg.codes.seqPacketRejected (reasmNumber k) (some src)) s
  exact ⟨harchive, hfdir⟩

/-- A fragment is taken without an alert, or is answered by one (R222 to R226). -/
theorem feedReasm_atMostOneAlert (k : Reasm) (p : Packet) (s : State) : AtMostOneAlert s (feedReasm k p s) := by
  unfold feedReasm
  split <;>
    exact iteInduction (motive := AtMostOneAlert s) (fun _ => .of_eq rfl rfl) fun _ => violation_atMostOneAlert k p s

theorem feedByConfig_atMostOneAlert (p : Packet) (s : State) : AtMostOneAlert s (feedByConfig p s) := by
  unfold feedByConfig
  split
  · exact feedReasm_atMostOneAlert _ p s
  · exact .of_eq rfl rfl

/-- The forward to the consumer of a fragment is no alert, so the feed may still send one. -/
theorem feed_forward_atMostOneAlert {c : Consumer} (hc : c ≠ .fdir) (p : Packet) (s : State) :
    AtMostOneAlert s (feedByConfig p (forwardEnvelope c p s)) := by
  obtain ⟨harchive, l, hl, hlen⟩ := feedByConfig_atMostOneAlert p (forwardEnvelope c p s)
  refine ⟨harchive, l, ?_, hlen⟩
  rw [hl, forwardEnvelope, emitFwd_out_fwd, PerConsumer.get_set, if_neg hc.symm]

theorem runDispatchOp_atMostOneAlert (op : DispatchOp) (p : Packet) (s : State) :
    AtMostOneAlert s (runDispatchOp op p s) := by
  cases op with
  | tcvAccOk => exact successReport_atMostOneAlert false p s
  | tcvExeOk => exact successReport_atMostOneAlert true p s
  | tcvAccFail => exact failureReport_atMostOneAlert p.serviceSubType p s
  | tcvExeFail => exact failureReport_atMostOneAlert 8 p s
  | hk10 | hk12 | hk25 | hk26 => exact forwardEnvelope_atMostOneAlert .hk p s
  | evt1 => exact .of_eq rfl rfl
  | evt2 => exact alertingEvent_atMostOneAlert 2 p s
  | evt3 => exact alertingEvent_atMostOneAlert 3 p s
  | evt4 => exact alertingEvent_atMostOneAlert 4 p s
  | mem6 | mem10 => exact feed_forward_atMostOneAlert (by decide) p s
  | sched4 => exact feed_forward_atMostOneAlert (by decide) p s
  | time2 => exact timesync_atMostOneAlert p s
  | fdirFwd => exact forwardEnvelope_atMostOneAlert .fdir p s

theorem runBranch_atMostOneAlert (p : Packet) (s : State) : AtMostOneAlert s (runBranch p s) := by
  unfold runBranch
  split_ifs
  · exact .of_eq rfl rfl
  · exact forwardEnvelope_atMostOneAlert .hk p s
  · exact alertingEvent_atMostOneAlert p.serviceSubType p s
  · exact .of_eq rfl rfl
  · exact feed_forward_atMostOneAlert (by decide) p s
  · exact timesync_atMostOneAlert p s
  · exact feed_forward_atMostOneAlert (by decide) p s
  · exact forwardEnvelope_atMostOneAlert .fdir p s
  · exact .of_eq rfl rfl

theorem dispatch_atMostOneAlert (p : Packet) (s : State) : AtMostOneAlert s (dispatch p s) := by
  unfold dispatch
  split
  · exact runDispatchOp_atMostOneAlert _ p s
  · exact runBranch_atMostOneAlert p s

end Alerts

/-- Settles O18: a byte list that does not decode and a packet that is rejected are logged and no more; a verified one is logged
and dispatched, and the dispatch sends at most one alert. -/
theorem rxEmitsOneArchiveAndAtMostOneAlert : Obligations.RxEmitsOneArchiveAndAtMostOneAlert := by
  intro B s
  cases hdecode : decodeFrame s.cfg B with
  | none =>
    refine ⟨_, .error .frameLengthError, [], exec_rx B s, ?_⟩
    rw [runRx_of_decodeFrame_none hdecode]
    exact ⟨rfl, rfl, .inr ⟨_, rfl, rfl⟩, [], by simp⟩
  | some p =>
    cases hverdict : verifyPacket s.cfg p with
    | reject r =>
      refine ⟨_, .error r, [], exec_rx B s, ?_⟩
      rw [runRx_of_decodeFrame hdecode, hverdict]
      exact ⟨rfl, rfl, .inr ⟨r, rfl, rfl⟩, [], by simp [routeVerdict, raiseError]⟩
    | ok =>
      generalize hu : emitLog .verifyOk (loadPkt p (loadFrame B (emitArchive B s))) = u
      obtain ⟨rest, hrest⟩ := (dispatch_effect p u).touches.ports.log
      obtain ⟨harchive, hfdir⟩ := dispatch_atMostOneAlert p u
      refine ⟨_, .verifyOk, rest, exec_rx B s, ?_⟩
      rw [runRx_of_verified hdecode hverdict, hu, harchive, hrest]
      subst hu
      exact ⟨rfl, by simp, .inl rfl, hfdir⟩

end Sys2Proof.Machine

/-! ### Who feeds a session (R174, R220, R233) -/

namespace Sys2Proof.Machine

section Fed

variable {s t : State} {k : Reasm}

theorem violation_rs_get_of_ne {j : Reasm} (h : k ≠ j) (src : Packet) (s : State) :
    (violation j src s).rs.get k = s.rs.get k := by
  simp [violation_eq, h]

/-- A fragment for one session leaves the other one alone, R220. -/
theorem feedReasm_rs_get_of_ne {j : Reasm} (h : k ≠ j) (p : Packet) (s : State) :
    (feedReasm j p s).rs.get k = s.rs.get k := by
  unfold feedReasm
  split <;>
    exact iteInduction (motive := fun t : State => t.rs.get k = s.rs.get k) (fun _ => by simp [flush_eq, h])
      fun _ => violation_rs_get_of_ne h p s

/-- A feed changes no session but that of the packet's pair, R174 and R220. -/
theorem feedByConfig_changes {p : Packet} (h : (feedByConfig p s).rs.get k ≠ s.rs.get k) : reasmOf s.cfg p = some k := by
  cases hfeed : reasmOf s.cfg p with
  | none => exact absurd (congrArg (·.rs.get k) (feedByConfig_of_none hfeed)) h
  | some j =>
    rw [feedByConfig_of_some hfeed] at h
    by_contra hne
    exact h (feedReasm_rs_get_of_ne (fun hkj => hne (congrArg some hkj.symm)) p s)

theorem DispatchEffect.changes {p : Packet} (h : DispatchEffect p s t) (hrs : t.rs.get k ≠ s.rs.get k) :
    reasmOf s.cfg p = some k := by
  have hkept (hsame : t.rs = s.rs) : reasmOf s.cfg p = some k := absurd (congrArg (·.get k) hsame) hrs
  cases h with
  | nothing => exact hkept rfl
  | report completion => exact hkept ((successReport_touches completion p s).rs (by simp))
  | failure n => exact hkept rfl
  | log e => exact hkept rfl
  | alert n => exact hkept rfl
  | forward c => exact hkept rfl
  | feed c => exact feedByConfig_changes (s := forwardEnvelope c p s) hrs
  | time => exact hkept ((timesync_touches p s).rs (by simp))

/-- An `RX` that changes a session is of a verified packet whose pair feeds it. -/
theorem runRx_changes {B : Bytes} (hrs : (runRx B s).rs.get k ≠ s.rs.get k) :
    ∃ p, decodeFrame s.cfg B = some p ∧ verifyPacket s.cfg p = .ok ∧ reasmOf s.cfg p = some k := by
  cases hdecode : decodeFrame s.cfg B with
  | none => exact absurd (by rw [runRx_of_decodeFrame_none hdecode]; rfl) hrs
  | some p =>
    refine ⟨p, rfl, ?_⟩
    cases hverdict : verifyPacket s.cfg p with
    | reject r => exact absurd (by rw [runRx_of_decodeFrame hdecode, hverdict]; rfl) hrs
    | ok =>
      rw [runRx_of_verified hdecode hverdict] at hrs
      exact ⟨rfl, (dispatch_effect p (emitLog .verifyOk (loadPkt p (loadFrame B (emitArchive B s))))).changes hrs⟩

/-- Of the operations that an agent may request, only `RX` writes the sessions (R233). -/
theorem eq_rx_of_mem_written {c : Config} {a : Agent} {i : Instr} (hp : permits c a i = true) (hrs : .rs ∈ written i) :
    ∃ B, i = .rx B := by
  cases i with
  | rx B => exact ⟨B, rfl⟩
  | _ => simp [permits, written] at hp hrs

/-- Only the link requests `RX`, as the frame or as the words of its port (R174, R279). -/
theorem requested_rx {c : Config} {w : Words} {B : Bytes} (h : requested c w = .ok (.rx B)) :
    w = .frame152 B ∨ decode c w = .ok (.rx B) := by
  cases w with
  | frame152 F => exact .inl (by simpa [requested] using h)
  | port code operands => exact .inr h
  | seq2 flags operands => exact .inr h

end Fed

/-- Settles O60: a load keeps the sessions, and of the requests only an `RX` of a verified packet feeds them. -/
theorem sessionsAreFedByVerifiedFramesOnly : Obligations.SessionsAreFedByVerifiedFramesOnly := by
  intro s t k h hrs
  obtain ⟨-, rfl⟩ | ⟨⟨a, w⟩, rest, i, hinbox, hreq, hp, hx⟩ | ⟨rest, hreset, -⟩ | ⟨c, rest, -, -, -, rfl⟩ := step_cases h
  · exact absurd rfl hrs
  · have hwritten : .rs ∈ written i := by
      by_contra hnot
      exact hrs (congrArg (·.get k) ((exec_touches hx).rs hnot))
    obtain ⟨B, rfl⟩ := eq_rx_of_mem_written hp hwritten
    obtain rfl : a = .link := beq_iff_eq.mp hp
    obtain rfl := Host.Outcome.next.inj hx
    obtain ⟨p, hdecode, hok, hfeed⟩ := runRx_changes (s := taken rest s) hrs
    exact .inr ⟨w, B, rest, p, hinbox, requested_rx hreq, hdecode, hok, hfeed⟩
  · exact .inl ⟨rest, hreset⟩
  · exact absurd rfl hrs

end Sys2Proof.Machine

/-! ### The reassembler's operations (R222 to R228) -/

namespace Sys2Proof.Machine

/-- The session after a violation or a flush (R226, R227): everything but `expectedTotalPackets` is at its reset value. -/
def discarded (r : ReasmState) : ReasmState :=
  { r with phase := .idle, lastSequenceCount := 0, sequenceOffset := 0, buffer := [] }

/-- The state after `b` is given to the sink and the session is discarded (R227). -/
def flushed (k : Reasm) (b : Bytes) (s : State) : State := setRs k (discarded (s.rs.get k)) (emitSink k b s)

theorem flushed_eq (k : Reasm) (b : Bytes) (s : State) :
    flushed k b s =
      { s with
        rs := s.rs.set k ⟨.idle, 0, 0, (s.rs.get k).expectedTotalPackets, []⟩
        out := { s.out with sink := s.out.sink.set k (s.out.sink.get k ++ [b]) } } := rfl

@[simp] theorem opened_buffer (c : Byte) (frag : Bytes) (ph : Phase) (r : ReasmState) :
    (opened c frag ph r).buffer = frag := rfl

@[simp] theorem extended_buffer (c : Byte) (frag : Bytes) (ph : Phase) (r : ReasmState) :
    (extended c frag ph r).buffer = r.buffer ++ frag := rfl

theorem flush_eq_flushed (k : Reasm) (s : State) : flush k s = flushed k (s.rs.get k).buffer s := rfl

/-- A write to a session that is flushed next shows in what the discarded session keeps of it only. -/
theorem flushed_setRs (k : Reasm) (b : Bytes) (r : ReasmState) (s : State) :
    flushed k b (setRs k r s) = setRs k (discarded r) (emitSink k b s) := by
  simp [flushed, setRs, emitSink]

/-- Opening a session keeps what the discarded session keeps. -/
theorem flushed_opened (k : Reasm) (b : Bytes) (c : Byte) (frag : Bytes) (ph : Phase) (s : State) :
    flushed k b (setRs k (opened c frag ph (s.rs.get k)) s) = flushed k b s := flushed_setRs k b _ s

/-- A further fragment keeps what the discarded session keeps. -/
theorem flushed_extended (k : Reasm) (b : Bytes) (c : Byte) (frag : Bytes) (ph : Phase) (s : State) :
    flushed k b (setRs k (extended c frag ph (s.rs.get k)) s) = flushed k b s := flushed_setRs k b _ s

/-- The comparison of R228. -/
theorem mayContinue_iff {r : ReasmState} {c : Byte} :
    mayContinue r c = true ↔ r.phase = .collecting ∧ r.lastSequenceCount.toNat < c.toNat := by
  simp [mayContinue]

/-- When `SEQ.CONT` and `SEQ.LAST` are violations, R226. -/
theorem mayContinue_eq_false_iff {r : ReasmState} {c : Byte} :
    mayContinue r c = false ↔ r.phase ≠ .collecting ∨ c.toNat ≤ r.lastSequenceCount.toNat := by
  rw [← Bool.not_eq_true, mayContinue_iff, not_and_or, Nat.not_lt]

section Fragment

variable {k : Reasm} {c : Byte} {frag : Bytes} {src : Packet} {s : State}

theorem exec_seqFirst_of_idle (h : (s.rs.get k).phase = .idle) :
    exec (.seqFirst k c frag src) s = .next (setRs k (opened c frag .collecting (s.rs.get k)) s) := by
  simp [exec, execSeqFirst, runSeqFirst, h]

theorem exec_seqFirst_of_not_idle (h : (s.rs.get k).phase ≠ .idle) :
    exec (.seqFirst k c frag src) s = .next (violation k src s) := by
  simp [exec, execSeqFirst, runSeqFirst, h]

theorem exec_seqStandalone_of_idle (h : (s.rs.get k).phase = .idle) :
    exec (.seqStandalone k c frag src) s = .next (flushed k frag s) := by
  simp [exec, execSeqStandalone, runSeqStandalone, h, flush_eq_flushed, flushed_opened]

theorem exec_seqStandalone_of_not_idle (h : (s.rs.get k).phase ≠ .idle) :
    exec (.seqStandalone k c frag src) s = .next (violation k src s) := by
  simp [exec, execSeqStandalone, runSeqStandalone, h]

theorem exec_seqCont_of_mayContinue (h : mayContinue (s.rs.get k) c = true) :
    exec (.seqCont k c frag src) s = .next (setRs k (extended c frag .collecting (s.rs.get k)) s) := by
  simp [exec, execSeqCont, runSeqCont, h]

theorem exec_seqCont_of_not_mayContinue (h : mayContinue (s.rs.get k) c = false) :
    exec (.seqCont k c frag src) s = .next (violation k src s) := by
  simp [exec, execSeqCont, runSeqCont, h]

theorem exec_seqLast_of_mayContinue (h : mayContinue (s.rs.get k) c = true) :
    exec (.seqLast k c frag src) s = .next (flushed k ((s.rs.get k).buffer ++ frag) s) := by
  simp [exec, execSeqLast, runSeqLast, h, flush_eq_flushed, flushed_extended]

theorem exec_seqLast_of_not_mayContinue (h : mayContinue (s.rs.get k) c = false) :
    exec (.seqLast k c frag src) s = .next (violation k src s) := by
  simp [exec, execSeqLast, runSeqLast, h]

end Fragment

/-- What an operation of a reassembler instance can do (R222 to R227): it opens, extends, flushes or discards its session. -/
inductive FragmentEffect (k : Reasm) (s : State) : State → Prop
  | opening (c : Byte) (frag : Bytes) : FragmentEffect k s (setRs k (opened c frag .collecting (s.rs.get k)) s)
  | extending (c : Byte) (frag : Bytes) (h : mayContinue (s.rs.get k) c = true) :
      FragmentEffect k s (setRs k (extended c frag .collecting (s.rs.get k)) s)
  | flushing (b : Bytes) : FragmentEffect k s (flushed k b s)
  | violating (src : Packet) : FragmentEffect k s (violation k src s)

/-- The four operations of a reassembler instance, each of a fragment (R220). -/
theorem exec_fragmentEffect {k : Reasm} {c : Byte} {frag : Bytes} {src : Packet} {s t : State} {i : Instr}
    (hi : i ∈ [Instr.seqFirst k c frag src, .seqStandalone k c frag src, .seqCont k c frag src, .seqLast k c frag src])
    (h : exec i s = .next t) : FragmentEffect k s t := by
  simp only [List.mem_cons, List.not_mem_nil, or_false] at hi
  obtain rfl | rfl | rfl | rfl := hi
  · by_cases hidle : (s.rs.get k).phase = .idle
    · exact of_next ((exec_seqFirst_of_idle hidle).symm.trans h) (.opening c frag)
    · exact of_next ((exec_seqFirst_of_not_idle hidle).symm.trans h) (.violating src)
  · by_cases hidle : (s.rs.get k).phase = .idle
    · exact of_next ((exec_seqStandalone_of_idle hidle).symm.trans h) (.flushing frag)
    · exact of_next ((exec_seqStandalone_of_not_idle hidle).symm.trans h) (.violating src)
  · cases hmay : mayContinue (s.rs.get k) c with
    | true => exact of_next ((exec_seqCont_of_mayContinue hmay).symm.trans h) (.extending c frag hmay)
    | false => exact of_next ((exec_seqCont_of_not_mayContinue hmay).symm.trans h) (.violating src)
  · cases hmay : mayContinue (s.rs.get k) c with
    | true => exact of_next ((exec_seqLast_of_mayContinue hmay).symm.trans h) (.flushing _)
    | false => exact of_next ((exec_seqLast_of_not_mayContinue hmay).symm.trans h) (.violating src)

theorem seqInstr_mem (op : SeqOp) (k : Reasm) (c : Byte) (frag : Bytes) (src : Packet) :
    seqInstr op k c frag src ∈
      [Instr.seqFirst k c frag src, .seqStandalone k c frag src, .seqCont k c frag src, .seqLast k c frag src] := by
  cases op <;> simp [seqInstr]

/-- The feed is one of the four operations (R108, R220). -/
theorem feedReasm_fragmentEffect (k : Reasm) (p : Packet) (s : State) : FragmentEffect k s (feedReasm k p s) := by
  have hexec : exec (seqInstr (seqOpOf p.seqFlags) k p.seqCount (fragment s.cfg p) p) s = .next (feedReasm k p s) := by
    unfold feedReasm
    cases seqOpOf p.seqFlags <;> rfl
  exact exec_fragmentEffect (seqInstr_mem _ k _ _ p) hexec

/-- Settles O35: the opened session's registers are written out. -/
theorem firstOpensASession : Obligations.FirstOpensASession := fun _ _ _ _ _ hidle => exec_seqFirst_of_idle hidle

/-- Settles O36: the flushed state is written out. -/
theorem standaloneFlushesItsFragment : Obligations.StandaloneFlushesItsFragment := fun _ _ _ _ _ hidle =>
  exec_seqStandalone_of_idle hidle

/-- Settles O37: a collecting session with a smaller count may continue, so it is extended, or extended and flushed. -/
theorem laterFragmentsAreAppended : Obligations.LaterFragmentsAreAppended := by
  intro k c frag src s hphase hlt
  have hmay := mayContinue_iff.mpr ⟨hphase, hlt⟩
  refine ⟨?_, exec_seqLast_of_mayContinue hmay⟩
  rw [exec_seqCont_of_mayContinue hmay, extended, ← hphase]
  rfl

/-- The violation's alert and session, written out. -/
theorem violation_spec (k : Reasm) (src : Packet) (s : State) :
    ∃ E, IsAlert s.cfg.codes.seqPacketRejected (match k with | .memDump => 0 | .schedReport => 1) src E ∧
      violation k src s = { s with
        rs := s.rs.set k ⟨.idle, 0, 0, (s.rs.get k).expectedTotalPackets, []⟩
        out := { s.out with fwd := s.out.fwd.set .fdir (s.out.fwd.get .fdir ++ [E]) } } :=
  ⟨_, by cases k <;> exact alert_spec _ _ src, violation_eq k src s⟩

/-- Settles O38: each of the combinations is a violation of its operation's rule. -/
theorem violationDiscardsTheSession : Obligations.ViolationDiscardsTheSession := by
  intro k c frag src s i hi
  have hviolation : exec i s = .next (violation k src s) := by
    obtain ⟨rfl, hphase⟩ | ⟨rfl, hphase⟩ | ⟨rfl | rfl, hbad⟩ := hi
    · exact exec_seqFirst_of_not_idle hphase
    · exact exec_seqStandalone_of_not_idle hphase
    · exact exec_seqCont_of_not_mayContinue (mayContinue_eq_false_iff.mpr hbad)
    · exact exec_seqLast_of_not_mayContinue (mayContinue_eq_false_iff.mpr hbad)
  obtain ⟨E, halert, heq⟩ := violation_spec k src s
  exact ⟨E, halert, hviolation.trans (congrArg _ heq)⟩

/-! Independence (R220, R231) -/

/-- An operation of one instance writes the session of no other, and emits on the sink of no other. -/
theorem FragmentEffect.other {k k' : Reasm} {s t : State} (h : FragmentEffect k s t) (hne : k' ≠ k) :
    t.rs.get k' = s.rs.get k' ∧ t.out.sink.get k' = s.out.sink.get k' := by
  cases h with
  | opening c frag | extending c frag hmay => exact ⟨by simp [hne], rfl⟩
  | flushing b => simp [flushed_eq, hne]
  | violating src => simp [violation_eq, hne]

/-- Settles O40: the bytes of `RBUF` are those of the session's buffer. -/
theorem sessionsAreIndependent : Obligations.SessionsAreIndependent := by
  intro k k' c frag src s t i hne hi h
  obtain ⟨hsession, hsink⟩ := (exec_fragmentEffect hi h).other hne.symm
  exact ⟨hsession, hsink, fun n => by simp [readByte, spaceBytes, State.spaces, hsession]⟩

/-! A whole transfer (R222, R224, R225) -/

theorem execAll_cons_of_next {i : Instr} {rest : List Instr} {s t : State} (h : exec i s = .next t) :
    execAll (i :: rest) s = execAll rest t := by
  simp [execAll, h]

theorem execAll_singleton_of_next {i : Instr} {s t : State} (h : exec i s = .next t) : execAll [i] s = .next t :=
  execAll_cons_of_next h

/-- From `Collecting`, fragments of increasing counts are appended one after the other, and the `LAST` flushes them all. -/
theorem execAll_of_collecting {k : Reasm} {src : Packet} {s : State} {last : Byte × Bytes} {conts : List (Byte × Bytes)}
    (hphase : (s.rs.get k).phase = .collecting)
    (hcounts : ((s.rs.get k).lastSequenceCount.toNat :: (conts ++ [last]).map fun f => f.1.toNat).Pairwise (· < ·)) :
    execAll (conts.map (fun f => .seqCont k f.1 f.2 src) ++ [.seqLast k last.1 last.2 src]) s =
      .next (flushed k ((s.rs.get k).buffer ++ ((conts ++ [last]).map Prod.snd).flatten) s) := by
  induction conts generalizing s with
  | nil =>
    have hmay : mayContinue (s.rs.get k) last.1 = true := mayContinue_iff.mpr ⟨hphase, by simpa using hcounts⟩
    simpa using execAll_singleton_of_next (exec_seqLast_of_mayContinue hmay)
  | cons f conts ih =>
    obtain ⟨hbelow, hlater⟩ := List.pairwise_cons.mp hcounts
    have hmay : mayContinue (s.rs.get k) f.1 = true := mayContinue_iff.mpr ⟨hphase, hbelow _ List.mem_cons_self⟩
    rw [List.map_cons, List.cons_append, execAll_cons_of_next (exec_seqCont_of_mayContinue hmay),
      ih (by simp [extended]) (by simpa [extended] using hlater), flushed_extended]
    simp

/-- Settles O39: the `FIRST` opens a session that collects the other fragments, and what it flushes is all of them. -/
theorem transferIsReassembled : Obligations.TransferIsReassembled := by
  intro k src s first last conts hidle hcounts
  rw [List.cons_append, execAll_cons_of_next (exec_seqFirst_of_idle hidle),
    execAll_of_collecting (by simp [opened]) (by simpa [opened] using hcounts), flushed_opened]
  simp [flushed_eq]

end Sys2Proof.Machine

/-! ### The reassembler's steady state (R227, R230) -/

namespace Sys2Proof.Machine

/-- A session between two steps: what `ReasmInv` says of each (`reasmInv_iff`). -/
structure SessionSteady (r : ReasmState) : Prop where
  notDone : r.phase ≠ .done
  idle : r.phase = .idle → r.lastSequenceCount = 0 ∧ r.sequenceOffset = 0 ∧ r.buffer = []
  collecting : r.phase = .collecting → r.sequenceOffset.toNat ≤ r.lastSequenceCount.toNat
  expected : r.expectedTotalPackets = 0

theorem reasmInv_iff {s : State} : ReasmInv s ↔ ∀ k, SessionSteady (s.rs.get k) := by
  refine forall_congr' fun k => ⟨fun ⟨hdone, hidle, hcoll, hexp⟩ => ⟨hdone, hidle, hcoll, hexp⟩, fun h => ?_⟩
  exact ⟨h.notDone, h.idle, h.collecting, h.expected⟩

theorem ReasmInv.of_rs_eq {s t : State} (hs : ReasmInv s) (h : t.rs = s.rs) : ReasmInv t := by
  unfold ReasmInv
  rw [h]
  exact hs

section Sessions

variable {r : ReasmState} (hr : SessionSteady r)
include hr

theorem SessionSteady.discarded : SessionSteady (discarded r) :=
  ⟨nofun, fun _ => ⟨rfl, rfl, rfl⟩, nofun, hr.expected⟩

/-- A session is opened with one count as its first and its last, R222. -/
theorem SessionSteady.opened (c : Byte) (frag : Bytes) : SessionSteady (opened c frag .collecting r) :=
  ⟨nofun, nofun, fun _ => Nat.le_refl _, hr.expected⟩

/-- The count of a further fragment is above the last, which is not below the first, R224 and R228. -/
theorem SessionSteady.extended {c : Byte} (frag : Bytes) (h : mayContinue r c = true) :
    SessionSteady (extended c frag .collecting r) := by
  obtain ⟨hphase, hlt⟩ := mayContinue_iff.mp h
  exact ⟨nofun, nofun, fun _ => (hr.collecting hphase).trans hlt.le, hr.expected⟩

end Sessions

section Steps

variable {s t : State} (hs : ReasmInv s)
include hs

theorem ReasmInv.setRs {k : Reasm} {r : ReasmState} (hr : SessionSteady r) : ReasmInv (setRs k r s) := by
  refine reasmInv_iff.mpr fun j => ?_
  rw [setRs_rs, PerReasm.get_set]
  split
  · exact hr
  · exact reasmInv_iff.mp hs j

theorem FragmentEffect.reasmInv {k : Reasm} (h : FragmentEffect k s t) : ReasmInv t := by
  have hk := reasmInv_iff.mp hs k
  cases h with
  | opening c frag => exact hs.setRs (hk.opened c frag)
  | extending c frag hmay => exact hs.setRs (hk.extended frag hmay)
  | flushing b => exact (hs.of_rs_eq rfl).setRs hk.discarded
  | violating src => exact (hs.setRs hk.discarded).of_rs_eq rfl

theorem feedByConfig_reasmInv (p : Packet) : ReasmInv (feedByConfig p s) := by
  cases hfeed : reasmOf s.cfg p with
  | none => rwa [feedByConfig_of_none hfeed]
  | some k =>
    rw [feedByConfig_of_some hfeed]
    exact (feedReasm_fragmentEffect k p s).reasmInv hs

theorem DispatchEffect.reasmInv {p : Packet} (h : DispatchEffect p s t) : ReasmInv t := by
  cases h with
  | nothing => exact hs
  | report completion => exact hs.of_rs_eq ((successReport_touches completion p s).rs (by simp))
  | failure n => exact hs.of_rs_eq rfl
  | log e => exact hs.of_rs_eq rfl
  | alert n => exact hs.of_rs_eq rfl
  | forward c => exact hs.of_rs_eq rfl
  | feed c => exact feedByConfig_reasmInv (s := forwardEnvelope c p s) (hs.of_rs_eq rfl) p
  | time => exact hs.of_rs_eq ((timesync_touches p s).rs (by simp))

theorem runRx_reasmInv (B : Bytes) : ReasmInv (runRx B s) := by
  cases hdecode : decodeFrame s.cfg B with
  | none => exact runRx_of_decodeFrame_none hdecode ▸ hs.of_rs_eq rfl
  | some p =>
    rw [runRx_of_decodeFrame hdecode]
    cases verifyPacket s.cfg p with
    | reject reason => exact hs.of_rs_eq rfl
    | ok =>
      have hlogged : ReasmInv (emitLog .verifyOk (loadPkt p (loadFrame B (emitArchive B s)))) := hs.of_rs_eq rfl
      exact (dispatch_effect p _).reasmInv hlogged

/-- Of the operations that an agent may request, only `RX` reaches the sessions (R233, R279). -/
theorem exec_reasmInv {i : Instr} {a : Agent} (hp : permits s.cfg a i = true) (h : exec i s = .next t) : ReasmInv t := by
  by_cases hrs : .rs ∈ written i
  · obtain ⟨B, rfl⟩ := eq_rx_of_mem_written hp hrs
    exact of_next h (runRx_reasmInv hs B)
  · exact hs.of_rs_eq ((exec_touches h).rs hrs)

end Steps

/-- Settles O55: a request's operation keeps the sessions steady, the reset makes them so, and a load leaves them alone. -/
theorem stepKeepsTheReassemblerSteady : Obligations.StepKeepsTheReassemblerSteady := by
  intro s t hs h
  obtain ⟨-, rfl⟩ | ⟨r, rest, i, -, -, hp, hx⟩ | ⟨rest, -, rfl⟩ | ⟨c, rest, -, -, -, rfl⟩ := step_cases h
  · exact hs
  · exact exec_reasmInv (hs.of_rs_eq (t := taken rest s) rfl) hp hx
  · exact reset_reasmInv.of_rs_eq rfl
  · exact hs.of_rs_eq rfl

end Sys2Proof.Machine

/-! ### The life of a wait (R243, R250, R252) -/

namespace Sys2Proof.Machine

/-- A service waits, or not, as before, with no result: a wait that goes on has its entry as before or holds the acceptance of a
two-phase operation (R243), and its count as before or short of the timeout (R245). -/
structure CarriesOn (sv : Service) (s t : State) : Prop where
  phase : (t.gate.get sv).twoPhase = (s.gate.get sv).twoPhase
  waiting : (t.gate.get sv).waiting = (s.gate.get sv).waiting
  results : t.out.result.get sv = s.out.result.get sv
  entry : (s.gate.get sv).waiting = true →
    t.tcv.get sv = s.tcv.get sv ∨ (t.tcv.get sv).acceptReceived = true ∧ satisfied t sv = false
  count : (s.gate.get sv).waiting = true →
    (t.gate.get sv).elapsed = (s.gate.get sv).elapsed ∧ (t.gate.get sv).timeout = (s.gate.get sv).timeout ∨
      (t.gate.get sv).elapsed < (t.gate.get sv).timeout

/-- The wait of a service ends with the result `r` (R244, R246). -/
structure EndsWait (sv : Service) (r : GateResult) (s t : State) : Prop where
  phase : (t.gate.get sv).twoPhase = (s.gate.get sv).twoPhase
  waited : (s.gate.get sv).waiting = true
  stopped : (t.gate.get sv).waiting = false
  results : t.out.result.get sv = s.out.result.get sv ++ [r]

/-- What every operation but the service's own `AWAIT` does to the wait of a service (R252). -/
inductive WaitEffect (sv : Service) (s t : State) : Prop
  | carriesOn (h : CarriesOn sv s t)
  | ends (r : GateResult) (h : EndsWait sv r s t)

section Effects

variable {sv : Service} {s t u : State}

/-- What leaves the cell, the entry and the results of a service alone leaves its wait alone. -/
theorem WaitEffect.of_eq (hgate : t.gate.get sv = s.gate.get sv) (htcv : t.tcv.get sv = s.tcv.get sv)
    (hresult : t.out.result.get sv = s.out.result.get sv) : WaitEffect sv s t :=
  .carriesOn ⟨by rw [hgate], by rw [hgate], hresult, fun _ => .inl htcv, fun _ => .inl (by simp [hgate])⟩

theorem WaitEffect.of_touches {P : List Part} (h : Touches P s t) (hgate : .gate ∉ P) (htcv : .tcv ∉ P)
    (hresult : .result ∉ P) : WaitEffect sv s t :=
  .of_eq (by rw [h.gate hgate]) (by rw [h.tcv htcv]) (by rw [h.result hresult])

/-- Whether an entry satisfies a cell depends on the entry and the phase bit alone, R241. -/
theorem satisfied_congr (htcv : t.tcv.get sv = s.tcv.get sv)
    (hphase : (t.gate.get sv).twoPhase = (s.gate.get sv).twoPhase) : satisfied t sv = satisfied s sv := by
  simp [satisfied, htcv, hphase]

theorem CarriesOn.trans (h : CarriesOn sv s t) (h' : CarriesOn sv t u) : CarriesOn sv s u where
  phase := h'.phase.trans h.phase
  waiting := h'.waiting.trans h.waiting
  results := h'.results.trans h.results
  entry hw := by
    obtain he' | hopen := h'.entry (h.waiting.trans hw)
    · rw [satisfied_congr he' h'.phase, he']
      exact h.entry hw
    · exact .inr hopen
  count hw := by
    obtain ⟨hel, hto⟩ | hrun := h'.count (h.waiting.trans hw)
    · rw [hel, hto]
      exact h.count hw
    · exact .inr hrun

/-- A service that has stopped waiting gets no second result, so effects compose. -/
theorem WaitEffect.trans (h : WaitEffect sv s t) (h' : WaitEffect sv t u) : WaitEffect sv s u := by
  cases h with
  | carriesOn h =>
    cases h' with
    | carriesOn h' => exact .carriesOn (h.trans h')
    | ends r h' =>
      exact .ends r ⟨h'.phase.trans h.phase, h.waiting.symm.trans h'.waited, h'.stopped, by rw [h'.results, h.results]⟩
  | ends r h =>
    cases h' with
    | carriesOn h' =>
      exact .ends r ⟨h'.phase.trans h.phase, h.waited, h'.waiting.trans h.stopped, by rw [h'.results, h.results]⟩
    | ends r' h' => exact absurd (h.stopped.symm.trans h'.waited) (by decide)

/-! The reports and the Router -/

/-- A report with its signal, R243: it ends a wait that it satisfies, and any other wait goes on. -/
theorem signal_reportSuccess_waitEffect (sv' : Service) (completion : Bool) (pid psc : Word16) :
    WaitEffect sv s (signal sv' (setTcv sv' (reportSuccess completion pid psc (s.tcv.get sv')) s)) := by
  obtain ⟨hw, -, hsignal⟩ | ⟨hn, hsignal⟩ :=
    signal_cases sv' (setTcv sv' (reportSuccess completion pid psc (s.tcv.get sv')) s)
  · rw [hsignal]
    by_cases h : sv = sv'
    · subst sv'
      exact .ends .ok ⟨by simp [gateSuccess_eq], hw, by simp [gateSuccess_eq], by simp [gateSuccess_eq]⟩
    · exact .of_eq (by simp [gateSuccess_eq, h]) (by simp [gateSuccess_eq, h]) (by simp [gateSuccess_eq, h])
  · rw [hsignal]
    by_cases h : sv = sv'
    · subst sv'
      have hopen (hw : (s.gate.get sv).waiting = true) := Bool.eq_false_of_not_eq_true fun hsat => hn ⟨hw, hsat⟩
      exact .carriesOn ⟨rfl, rfl, rfl, fun hw => .inr ⟨by simp [reportSuccess], hopen hw⟩, fun _ => .inl ⟨rfl, rfl⟩⟩
    · exact .of_eq rfl (by simp [h]) rfl

theorem successReport_waitEffect (completion : Bool) (p : Packet) : WaitEffect sv s (successReport completion p s) := by
  unfold successReport
  split
  · exact .of_eq rfl rfl rfl
  · exact signal_reportSuccess_waitEffect ..

theorem DispatchEffect.waitEffect {p : Packet} (h : DispatchEffect p s t) : WaitEffect sv s t := by
  cases h with
  | nothing => exact .of_eq rfl rfl rfl
  | report completion => exact successReport_waitEffect completion p
  | failure n => exact .of_eq rfl rfl rfl
  | log e => exact .of_eq rfl rfl rfl
  | alert n => exact .of_eq rfl rfl rfl
  | forward c => exact .of_eq rfl rfl rfl
  | feed c => exact .of_touches (feed_forward_touches c p s) (by simp) (by simp) (by simp)
  | time => exact .of_touches (timesync_touches p s) (by simp) (by simp) (by simp)

theorem runRx_waitEffect (B : Bytes) (s : State) : WaitEffect sv s (runRx B s) := by
  cases hdecode : decodeFrame s.cfg B with
  | none => exact runRx_of_decodeFrame_none hdecode ▸ .of_eq rfl rfl rfl
  | some p =>
    rw [runRx_of_decodeFrame hdecode]
    cases verifyPacket s.cfg p with
    | reject reason => exact .of_eq rfl rfl rfl
    | ok =>
      have hlogged : WaitEffect sv s (emitLog .verifyOk (loadPkt p (loadFrame B (emitArchive B s)))) := .of_eq rfl rfl rfl
      exact hlogged.trans (dispatch_effect p _).waitEffect

end Effects

end Sys2Proof.Machine

/-! ### `AWAIT` and `TICK` (R242, R245 to R248) -/

namespace Sys2Proof.Machine

/-! `AWAIT` -/

/-- The flags of an entry satisfy a wait for an operation code, R241. -/
abbrev FlagsSatisfy (c : Config) (op : Byte) (v : TcvState) : Prop :=
  v.acceptReceived = true ∧ (op ∈ c.twoPhase → v.executeReceived = true)

theorem isTwoPhase_iff {c : Config} {op : Byte} : isTwoPhase c op = true ↔ op ∈ c.twoPhase := List.contains_iff_mem

/-- The success of a freshly loaded cell is decided by the two-phase bit just latched, R242. -/
theorem satisfied_armed_iff {sv : Service} {n : Nat} {op : Byte} {s : State} :
    satisfied (setGate sv (armedCell s.cfg n op) s) sv = true ↔ FlagsSatisfy s.cfg op (s.tcv.get sv) := by
  simp [satisfied, armedCell, FlagsSatisfy, ← isTwoPhase_iff, imp_iff_not_or]

/-- What an accepted `AWAIT` does, R242 and R247. -/
inductive AwaitEffect (sv : Service) (n : Nat) (op : Byte) (s : State) : State → Prop
  | succeeds (h : FlagsSatisfy s.cfg op (s.tcv.get sv)) :
      AwaitEffect sv n op s (gateSuccess sv (setGate sv (armedCell s.cfg n op) s))
  | fails (h : ¬ FlagsSatisfy s.cfg op (s.tcv.get sv)) (hn : n = 0) :
      AwaitEffect sv n op s (gateTimedOut sv (setGate sv (armedCell s.cfg n op) s))
  | waits (h : ¬ FlagsSatisfy s.cfg op (s.tcv.get sv)) (hn : 0 < n) :
      AwaitEffect sv n op s (setGate sv { armedCell s.cfg n op with waiting := true } s)

section Await

variable {sv : Service} {n : Nat} {op : Byte} {s t : State}

theorem runAwait_of_satisfy (h : FlagsSatisfy s.cfg op (s.tcv.get sv)) :
    runAwait sv n op s = gateSuccess sv (setGate sv (armedCell s.cfg n op) s) := by
  simp only [runAwait, satisfied_armed_iff.mpr h, if_true]

theorem runAwait_of_zero (h : ¬ FlagsSatisfy s.cfg op (s.tcv.get sv)) (hn : n = 0) :
    runAwait sv n op s = gateTimedOut sv (setGate sv (armedCell s.cfg n op) s) := by
  simp only [runAwait, if_neg (mt satisfied_armed_iff.mp h), hn, if_true]

theorem runAwait_of_pos (h : ¬ FlagsSatisfy s.cfg op (s.tcv.get sv)) (hn : 0 < n) :
    runAwait sv n op s = setGate sv { armedCell s.cfg n op with waiting := true } s := by
  simp [runAwait, mt satisfied_armed_iff.mp h, hn.ne']

theorem runAwait_effect (sv : Service) (n : Nat) (op : Byte) (s : State) :
    AwaitEffect sv n op s (runAwait sv n op s) := by
  by_cases h : FlagsSatisfy s.cfg op (s.tcv.get sv)
  · exact runAwait_of_satisfy h ▸ .succeeds h
  · obtain hn | hn := Nat.eq_zero_or_pos n
    · exact runAwait_of_zero h hn ▸ .fails h hn
    · exact runAwait_of_pos h hn ▸ .waits h hn

theorem exec_await (sv : Service) (n : Nat) (op : Byte) (s : State) : exec (.await sv n op) s = execAwait sv n op s := rfl

theorem exec_await_of_admitted (hsv : sv ∈ s.cfg.services) (hn : n < 2 ^ s.cfg.timerWidth)
    (hw : (s.gate.get sv).waiting = false) : exec (.await sv n op) s = .next (runAwait sv n op s) := by
  rw [exec_await, execAwait, if_neg (by simpa using hsv), if_neg (Nat.not_le.mpr hn), if_neg (by simp [hw])]

/-- An `AWAIT` leaves the wait of every other service alone. -/
theorem AwaitEffect.other {sv' : Service} (h : AwaitEffect sv' n op s t) (hne : sv ≠ sv') : WaitEffect sv s t := by
  cases h with
  | succeeds h => exact .of_eq (by simp [gateSuccess_eq, hne]) (by simp [gateSuccess_eq, hne]) (by simp [gateSuccess_eq, hne])
  | fails h hn => exact .of_eq (by simp [gateTimedOut_eq, hne]) rfl (by simp [gateTimedOut_eq, hne])
  | waits h hn => exact .of_eq (by simp [hne]) rfl rfl

end Await

/-- Settles O41: the three outcomes of R242 and R247, the loaded cell written out. -/
theorem awaitArmsOrResolves : Obligations.AwaitArmsOrResolves := by
  intro sv n op s sat g hsv hn hw hg hsat
  have hflags : sat ↔ FlagsSatisfy s.cfg op (s.tcv.get sv) := hsat
  have hcell : armedCell s.cfg n op = g := by simp [hg, armedCell, isTwoPhase]
  rw [exec_await_of_admitted hsv hn hw, hflags]
  refine ⟨fun h => ?_, fun h hzero => ⟨_, bareAlert_spec op, ?_⟩, fun h hpos => ?_⟩
  · rw [runAwait_of_satisfy h, gateSuccess_eq, hcell]
    simp [setGate, hg]
  · rw [runAwait_of_zero h hzero, gateTimedOut_eq, hcell]
    simp [setGate, hg]
  · rw [runAwait_of_pos h hpos, hcell]
    rfl

/-- Settles O42: each of the three conditions is a guard of `AWAIT`, and with good operands only R248's is left. -/
theorem secondAwaitIsRefused : Obligations.SecondAwaitIsRefused := by
  intro sv n op s hbad
  rw [exec_await, execAwait]
  split_ifs with hsv hwide hw
  · exact ⟨_, rfl, fun h => absurd h (by simpa using hsv)⟩
  · exact ⟨_, rfl, fun _ h => absurd hwide (Nat.not_le.mpr h)⟩
  · exact ⟨_, rfl, fun _ _ => rfl⟩
  · exact absurd hbad (by simp_all)

/-! `TICK` -/

/-- A waiting cell whose next count reaches its timeout, R245. -/
def expires (g : GateCell) : Bool := g.waiting && decide (g.timeout ≤ g.elapsed + 1)

/-- The cell after a `TICK`, R245 and R246. -/
def tickedCell (g : GateCell) : GateCell :=
  if g.waiting = true then { g with elapsed := g.elapsed + 1, waiting := !expires g } else g

/-- The state after timeouts of cells with these operation codes, R246, the two banks given. -/
def afterTimeouts (codes : List Byte) (gate : PerService GateCell) (result : PerService (List GateResult)) (s : State) :
    State :=
  { s with
    gate := gate
    out := { s.out with
      log := s.out.log ++ codes.map .verificationTimeout
      fwd := s.out.fwd.set .fdir (s.out.fwd.get .fdir ++ codes.map fun op => alert op 0 none)
      result := result } }

/-- The operation codes of the cells of a list of services that expire, in its order. -/
def expiredCodes (l : List Service) (s : State) : List Byte :=
  (l.filter fun sv => expires (s.gate.get sv)).map fun sv => (s.gate.get sv).opcode

/-- The part of a `TICK` that the cells of a list of services make up, R245. -/
structure TicksCells (l : List Service) (s t : State) : Prop where
  state : t = afterTimeouts (expiredCodes l s) t.gate t.out.result s
  cell : ∀ sv, t.gate.get sv = if sv ∈ l then tickedCell (s.gate.get sv) else s.gate.get sv
  result : ∀ sv, t.out.result.get sv =
    s.out.result.get sv ++ if sv ∈ l ∧ expires (s.gate.get sv) = true then [.fail] else []

theorem PerConsumer.set_get {α : Type} (b : PerConsumer α) (c : Consumer) : b.set c (b.get c) = b :=
  PerConsumer.ext_get fun d => by rw [PerConsumer.get_set]; split <;> simp_all

theorem afterTimeouts_nil (s : State) : afterTimeouts [] s.gate s.out.result s = s := by
  simp [afterTimeouts, PerConsumer.set_get]

theorem afterTimeouts_append (codes codes' : List Byte) (gate gate' : PerService GateCell)
    (result result' : PerService (List GateResult)) (s : State) :
    afterTimeouts codes' gate' result' (afterTimeouts codes gate result s) =
      afterTimeouts (codes ++ codes') gate' result' s := by
  simp [afterTimeouts]

theorem TicksCells.refl (s : State) : TicksCells [] s s := ⟨(afterTimeouts_nil s).symm, by simp, by simp⟩

section Tick

variable {sv : Service} {l : List Service} {s t u : State}

theorem tickedCell_of_idle {g : GateCell} (hw : g.waiting = false) : tickedCell g = g := by simp [tickedCell, hw]

theorem tickedCell_of_waiting {g : GateCell} (hw : g.waiting = true) :
    tickedCell g = { g with elapsed := g.elapsed + 1, waiting := !expires g } := by simp [tickedCell, hw]

theorem tickCell_of_idle (hw : (s.gate.get sv).waiting = false) : tickCell s sv = s := by simp [tickCell, hw]

theorem tickCell_of_running (hw : (s.gate.get sv).waiting = true) (h : expires (s.gate.get sv) = false) :
    tickCell s sv = setGate sv (tickedCell (s.gate.get sv)) s := by
  have hlt : (s.gate.get sv).elapsed + 1 < (s.gate.get sv).timeout := by simpa [expires, hw] using h
  simp [tickCell, tickedCell_of_waiting hw, hw, h, hlt]

theorem tickCell_of_expires (h : expires (s.gate.get sv) = true) :
    tickCell s sv = afterTimeouts [(s.gate.get sv).opcode] (s.gate.set sv (tickedCell (s.gate.get sv)))
      (s.out.result.set sv (s.out.result.get sv ++ [.fail])) s := by
  obtain ⟨hw, hle⟩ : (s.gate.get sv).waiting = true ∧ (s.gate.get sv).timeout ≤ (s.gate.get sv).elapsed + 1 := by
    simpa [expires] using h
  simp [tickCell, tickedCell_of_waiting hw, gateTimedOut_eq, setGate, afterTimeouts, hw, hle, h]

/-- One cell's part of a `TICK`: it expires, does not wait, or counts on. -/
theorem tickCell_ticksCells (s : State) (sv : Service) : TicksCells [sv] s (tickCell s sv) := by
  by_cases hexp : expires (s.gate.get sv) = true
  · rw [tickCell_of_expires hexp]
    refine ⟨by simp [expiredCodes, hexp, afterTimeouts], fun sv' => ?_, fun sv' => ?_⟩ <;>
      by_cases h : sv' = sv <;> simp [afterTimeouts, h, hexp]
  · cases hw : (s.gate.get sv).waiting with
    | false =>
      rw [tickCell_of_idle hw]
      refine ⟨by simp [expiredCodes, hexp, afterTimeouts_nil], fun sv' => ?_, fun sv' => ?_⟩ <;>
        by_cases h : sv' = sv <;> simp [h, hexp, tickedCell_of_idle hw]
    | true =>
      rw [tickCell_of_running hw (Bool.eq_false_of_not_eq_true hexp)]
      refine ⟨by simp [expiredCodes, hexp, afterTimeouts, PerConsumer.set_get, setGate], fun sv' => ?_, fun sv' => ?_⟩ <;>
        by_cases h : sv' = sv <;> simp [h, hexp]

/-- The cells are independent, R245: the part of one leaves the cells after it as they are. -/
theorem TicksCells.cons (hsv : sv ∉ l) (h : TicksCells [sv] s t) (h' : TicksCells l t u) : TicksCells (sv :: l) s u := by
  have hcell (sv' : Service) (hmem : sv' ∈ l) : t.gate.get sv' = s.gate.get sv' := by
    rw [h.cell, if_neg (by simpa using ne_of_mem_of_not_mem hmem hsv)]
  have hcodes : expiredCodes (sv :: l) s = expiredCodes [sv] s ++ expiredCodes l t := by
    have hfilter : (l.filter fun sv' => expires (t.gate.get sv')) = l.filter fun sv' => expires (s.gate.get sv') :=
      List.filter_congr fun sv' hmem => by rw [hcell sv' hmem]
    have hmap : ((l.filter fun sv' => expires (s.gate.get sv')).map fun sv' => (t.gate.get sv').opcode) =
        (l.filter fun sv' => expires (s.gate.get sv')).map fun sv' => (s.gate.get sv').opcode :=
      List.map_congr_left fun sv' hmem => by rw [hcell sv' (List.mem_of_mem_filter hmem)]
    simp only [expiredCodes, hfilter, hmap, ← List.map_append, ← List.filter_append, List.singleton_append]
  refine ⟨?_, fun sv' => ?_, fun sv' => ?_⟩
  · calc u = afterTimeouts (expiredCodes l t) u.gate u.out.result t := h'.state
      _ = afterTimeouts (expiredCodes l t) u.gate u.out.result
            (afterTimeouts (expiredCodes [sv] s) t.gate t.out.result s) := congrArg _ h.state
      _ = afterTimeouts (expiredCodes (sv :: l) s) u.gate u.out.result s := by rw [afterTimeouts_append, hcodes]
  · by_cases hmem : sv' ∈ l
    · simp [h'.cell, hcell sv' hmem, hmem]
    · simp [h'.cell, h.cell, hmem]
  · by_cases hmem : sv' ∈ l
    · simp [h'.result, h.result, hcell sv' hmem, hmem, ne_of_mem_of_not_mem hmem hsv]
    · simp [h'.result, h.result, hmem]

theorem foldl_tickCell_ticksCells (hl : l.Nodup) (s : State) : TicksCells l s (l.foldl tickCell s) := by
  induction l generalizing s with
  | nil => exact .refl s
  | cons sv l ih =>
    obtain ⟨hsv, hl⟩ := List.nodup_cons.mp hl
    exact .cons hsv (tickCell_ticksCells s sv) (ih hl _)

theorem exec_tick (s : State) : exec .tick s = .next (s.cfg.services.foldl tickCell s) := rfl

theorem exec_tick_ticksCells (h : s.cfg.services.Nodup) : ∃ t, exec .tick s = .next t ∧ TicksCells s.cfg.services s t :=
  ⟨_, exec_tick s, foldl_tickCell_ticksCells h s⟩

end Tick

/-- Settles O43: each cell counts on its own, and the expired ones put their events on the shared ports one after the other. -/
theorem tickAdvancesTheWaitingCells : Obligations.TickAdvancesTheWaitingCells := by
  intro s expired hnodup hexpired
  obtain ⟨t, htick, hstate, hcell, hresult⟩ := exec_tick_ticksCells hnodup
  have hmem (sv : Service) : sv ∈ expired ↔ sv ∈ s.cfg.services ∧ expires (s.gate.get sv) = true :=
    hexpired ▸ List.mem_filter
  have hcodes : expiredCodes s.cfg.services s = expired.map fun sv => (s.gate.get sv).opcode :=
    congrArg (List.map _) hexpired.symm
  refine ⟨t.gate, t.out.result, expired.map fun sv => alert (s.gate.get sv).opcode 0 none, ?_, ?_, fun sv => ⟨?_, ?_⟩⟩
  · refine htick.trans (congrArg _ (hstate.trans ?_))
    simp [afterTimeouts, hcodes, Function.comp_def]
  · exact List.forall₂_map_right_iff.mpr (List.forall₂_same.mpr fun sv _ => bareAlert_spec _)
  · simp only [hresult, hmem]
  · rw [hcell]
    by_cases hsv : sv ∈ s.cfg.services
    · cases hw : (s.gate.get sv).waiting with
      | false => simp [tickedCell_of_idle hw]
      | true => simp [tickedCell_of_waiting hw, hmem, hsv]
    · simp [hsv]

end Sys2Proof.Machine

/-! ### Every operation and every wait (R243, R245, R247, R249, R250, R252) -/

namespace Sys2Proof.Machine

section Exec

variable {sv : Service} {s t : State}

/-- One cell's part of a `TICK` ends an expiring wait, and any other goes on, short of its timeout (R245). -/
theorem tickCell_waitEffect (s : State) (sv' : Service) : WaitEffect sv s (tickCell s sv') := by
  obtain ⟨-, hcell, hresult⟩ := tickCell_ticksCells s sv'
  have htcv := congrArg (PerService.get · sv) (tickCell_tcv s sv')
  by_cases h : sv = sv'
  · subst sv'
    specialize hcell sv
    specialize hresult sv
    cases hw : (s.gate.get sv).waiting with
    | false => exact .of_eq (by simp [hcell, tickedCell_of_idle hw]) htcv (by simp [hresult, expires, hw])
    | true =>
      rw [if_pos List.mem_cons_self, tickedCell_of_waiting hw] at hcell
      cases hexp : expires (s.gate.get sv) with
      | false =>
        have hlt : (s.gate.get sv).elapsed + 1 < (s.gate.get sv).timeout := by simpa [expires, hw] using hexp
        exact .carriesOn ⟨by simp [hcell], by simp [hcell, hexp, hw], by simp [hresult, hexp], fun _ => .inl htcv,
          fun _ => .inr (by simpa [hcell] using hlt)⟩
      | true => exact .ends .fail ⟨by simp [hcell], hw, by simp [hcell, hexp], by simp [hresult, hexp]⟩
  · exact .of_eq (by simp [hcell, h]) htcv (by simp [hresult, h])

theorem foldl_tickCell_waitEffect (l : List Service) (s : State) : WaitEffect sv s (l.foldl tickCell s) := by
  induction l generalizing s with
  | nil => exact .of_eq rfl rfl rfl
  | cons sv' l ih => exact (tickCell_waitEffect s sv').trans (ih _)

/-- What an operation does to the wait of a service: its own `AWAIT`, or an effect on the wait there is. -/
theorem exec_gate_cases {i : Instr} (sv : Service) (h : exec i s = .next t) :
    (∃ n op, i = .await sv n op ∧ (s.gate.get sv).waiting = false ∧ AwaitEffect sv n op s t) ∨
      (∀ n op, i ≠ .await sv n op) ∧ WaitEffect sv s t := by
  cases i with
  | tcvAccOk p => exact .inr ⟨nofun, of_next h (successReport_waitEffect false p)⟩
  | tcvExeOk p => exact .inr ⟨nofun, of_next h (successReport_waitEffect true p)⟩
  | rx B => exact .inr ⟨nofun, of_next h (runRx_waitEffect B s)⟩
  | tick => exact .inr ⟨nofun, of_next h (foldl_tickCell_waitEffect _ s)⟩
  | await sv' n op =>
    obtain ⟨-, -, hw, rfl⟩ := execAwait_next h
    by_cases hne : sv = sv'
    · subst sv'
      exact .inl ⟨n, op, rfl, hw, runAwait_effect sv n op s⟩
    · exact .inr ⟨fun n' op' he => hne (Instr.await.inj he).1.symm, (runAwait_effect sv' n op s).other hne⟩
  | _ => exact .inr ⟨nofun, .of_touches (exec_touches h) (by simp [written]) (by simp [written]) (by simp [written])⟩

end Exec

/-! One result for every wait (R252) -/

/-- Results and waiting balance: a wait that ends gives one result. -/
theorem WaitEffect.balance {sv : Service} {s t : State} (h : WaitEffect sv s t) :
    ∃ l : List GateResult, t.out.result.get sv = s.out.result.get sv ++ l ∧
      l.length + (t.gate.get sv).waiting.toNat = (s.gate.get sv).waiting.toNat := by
  cases h with
  | carriesOn h => exact ⟨[], by simp [h.results], by simp [h.waiting]⟩
  | ends r h => exact ⟨[r], h.results, by simp [h.stopped, h.waited]⟩

/-- An accepted `AWAIT` gives one result, or waits. -/
theorem AwaitEffect.balance {sv : Service} {n : Nat} {op : Byte} {s t : State} (h : AwaitEffect sv n op s t) :
    ∃ l : List GateResult, t.out.result.get sv = s.out.result.get sv ++ l ∧
      l.length + (t.gate.get sv).waiting.toNat = 1 := by
  cases h with
  | succeeds h => exact ⟨[.ok], by simp [gateSuccess_eq], by simp [gateSuccess_eq]⟩
  | fails h hn => exact ⟨[.fail], by simp [gateTimedOut_eq], by simp [gateTimedOut_eq]⟩
  | waits h hn => exact ⟨[], by simp, by simp⟩

/-- Settles O52: an `AWAIT` of the service adds one to the balance, and every other operation keeps it. -/
theorem everyAwaitGetsOneResult : Obligations.EveryAwaitGetsOneResult := by
  intro i s t sv h
  obtain ⟨n, op, rfl, hw, hawait⟩ | ⟨hi, hwait⟩ := exec_gate_cases sv h
  · obtain ⟨l, hl, hlen⟩ := hawait.balance
    exact ⟨l, hl, by simp [hlen, hw]⟩
  · obtain ⟨l, hl, hlen⟩ := hwait.balance
    refine ⟨l, hl, hlen.trans ?_⟩
    split
    · rename_i sv' n op
      have hne : sv' ≠ sv := fun he => hi n op (he ▸ rfl)
      simp [hne]
    · rfl

/-! The gate's steady state (R243, R245) -/

/-- A service's cell is steady: what `GateInv` says of each. -/
def CellSteady (s : State) (sv : Service) : Prop :=
  (s.gate.get sv).waiting = true → satisfied s sv = false ∧ (s.gate.get sv).elapsed < (s.gate.get sv).timeout

theorem CellSteady.of_idle {s : State} {sv : Service} (h : (s.gate.get sv).waiting = false) : CellSteady s sv :=
  fun hw => absurd (h.symm.trans hw) (by decide)

theorem WaitEffect.cellSteady {sv : Service} {s t : State} (h : WaitEffect sv s t) (hs : CellSteady s sv) :
    CellSteady t sv := by
  cases h with
  | carriesOn h =>
    intro hwt
    have hw := h.waiting.symm.trans hwt
    obtain ⟨hsat, hrun⟩ := hs hw
    constructor
    · obtain he | ⟨-, hopen⟩ := h.entry hw
      · exact (satisfied_congr he h.phase).trans hsat
      · exact hopen
    · obtain ⟨hel, hto⟩ | hlt := h.count hw
      · rwa [hel, hto]
      · exact hlt
  | ends r h => exact .of_idle h.stopped

/-- The flags that keep an `AWAIT` waiting do not satisfy the cell that waits. -/
theorem satisfied_of_not_satisfy {sv : Service} {op : Byte} {s : State} (n : Nat)
    (h : ¬ FlagsSatisfy s.cfg op (s.tcv.get sv)) :
    satisfied (setGate sv { armedCell s.cfg n op with waiting := true } s) sv = false :=
  calc satisfied (setGate sv { armedCell s.cfg n op with waiting := true } s) sv
      = satisfied (setGate sv (armedCell s.cfg n op) s) sv := satisfied_congr rfl (by simp)
    _ = false := Bool.eq_false_of_not_eq_true (mt satisfied_armed_iff.mp h)

/-- The wait that an `AWAIT` begins is not satisfied and has counted nothing (R242). -/
theorem AwaitEffect.cellSteady {sv : Service} {n : Nat} {op : Byte} {s t : State} (h : AwaitEffect sv n op s t) :
    CellSteady t sv := by
  cases h with
  | succeeds h => exact .of_idle (by simp [gateSuccess_eq])
  | fails h hn => exact .of_idle (by simp [gateTimedOut_eq])
  | waits h hn =>
    exact fun _ => ⟨satisfied_of_not_satisfy n h, by simpa [armedCell] using hn⟩

theorem exec_gateInv {i : Instr} {s t : State} (hs : GateInv s) (h : exec i s = .next t) : GateInv t := by
  intro sv
  obtain ⟨n, op, -, -, hawait⟩ | ⟨-, hwait⟩ := exec_gate_cases sv h
  · exact hawait.cellSteady
  · exact hwait.cellSteady (hs sv)

theorem waiting_fresh (l : List Service) (sv : Service) : ((PerService.fresh l resetGate).get sv).waiting = false := by
  rw [PerService.get_fresh_gate]
  rfl

/-- Settles O54: an operation keeps every cell steady, and the reset and a load leave no cell waiting. -/
theorem stepKeepsTheGateSteady : Obligations.StepKeepsTheGateSteady := by
  intro s t hs h
  obtain ⟨-, rfl⟩ | ⟨r, rest, i, -, -, -, hx⟩ | ⟨rest, -, rfl⟩ | ⟨c, rest, -, -, -, rfl⟩ := step_cases h
  · exact hs
  · exact exec_gateInv (s := taken rest s) hs hx
  · exact fun sv => CellSteady.of_idle (waiting_fresh s.cfg.services sv)
  · exact fun sv => CellSteady.of_idle (waiting_fresh c.services sv)

/-! The lifecycle view (R250) -/

section View

variable {sv : Service} {s t : State}

/-- The end of a wait that has got its result: executed for a two-phase wait, accepted for a one-phase one (C7). -/
def endOf (twoPhase : Bool) : GateResult → Option Lifecycle
  | .ok => if twoPhase = true then some .executed else some .accepted
  | .fail => some .timedOut

theorem outcome_concat {l : List GateResult} {r : GateResult} (h : s.out.result.get sv = l ++ [r]) :
    outcome s sv = endOf (s.gate.get sv).twoPhase r := by
  cases r <;> simp [outcome, h, endOf, apply_ite]

theorem lifecycle_of_idle (h : (s.gate.get sv).waiting = false) : lifecycle s sv = outcome s sv := by
  simp [lifecycle, h]

theorem lifecycle_of_unaccepted (hw : (s.gate.get sv).waiting = true) (h : (s.tcv.get sv).acceptReceived = false) :
    lifecycle s sv = some .awaitingAccept := by
  simp [lifecycle, hw, h]

/-- A wait that holds its acceptance and is not satisfied is for the completion (R241). -/
theorem lifecycle_of_accepted (hw : (s.gate.get sv).waiting = true) (h : (s.tcv.get sv).acceptReceived = true)
    (hopen : satisfied s sv = false) : lifecycle s sv = some .awaitingExecute := by
  have hphase : (s.gate.get sv).twoPhase = true ∧ (s.tcv.get sv).executeReceived = false := by
    simpa [satisfied, h] using hopen
  simp [lifecycle, hw, h, hphase]

/-- The view of a wait that ended is one of its three ends. -/
theorem outcome_mem (s : State) (sv : Service) :
    outcome s sv ∈ [none, some .timedOut, some .executed, some .accepted] := by
  unfold outcome
  cases (s.out.result.get sv).getLast? with
  | none => simp
  | some r => cases r <;> cases (s.gate.get sv).twoPhase <;> simp

theorem waiting_of_awaiting {v : Lifecycle} (h : lifecycle s sv = some v) (hv : v = .awaitingAccept ∨ v = .awaitingExecute) :
    (s.gate.get sv).waiting = true := by
  by_contra hw
  have hend := outcome_mem s sv
  rw [← lifecycle_of_idle (Bool.eq_false_of_not_eq_true hw), h] at hend
  obtain rfl | rfl := hv <;> simp at hend

/-- Only a two-phase wait awaits the completion. -/
theorem twoPhase_of_awaitingExecute (h : lifecycle s sv = some .awaitingExecute) : (s.gate.get sv).twoPhase = true := by
  have hw := waiting_of_awaiting h (.inr rfl)
  by_contra hphase
  cases hacc : (s.tcv.get sv).acceptReceived <;> simp [lifecycle, hw, hphase, hacc] at h

theorem CarriesOn.lifecycle (h : CarriesOn sv s t) :
    lifecycle t sv = lifecycle s sv ∨
      (s.gate.get sv).waiting = true ∧ lifecycle t sv = some .awaitingExecute := by
  cases hw : (s.gate.get sv).waiting with
  | false =>
    left
    rw [lifecycle_of_idle (h.waiting.trans hw), lifecycle_of_idle hw]
    simp [outcome, h.results, h.phase]
  | true =>
    obtain he | ⟨hacc, hopen⟩ := h.entry hw
    · left
      simp [Machine.lifecycle, h.waiting, h.phase, hw, he]
    · exact .inr ⟨rfl, lifecycle_of_accepted (h.waiting.trans hw) hacc hopen⟩

theorem EndsWait.lifecycle {r : GateResult} (h : EndsWait sv r s t) :
    lifecycle t sv = endOf (s.gate.get sv).twoPhase r := by
  rw [lifecycle_of_idle h.stopped, outcome_concat h.results, h.phase]

/-- A view moves only while the service waits: on to the second wait, or to an end. -/
theorem WaitEffect.lifecycle (h : WaitEffect sv s t) :
    lifecycle t sv = lifecycle s sv ∨ (s.gate.get sv).waiting = true ∧ lifecycle t sv ∈
      [some .awaitingExecute, some .timedOut,
        if (s.gate.get sv).twoPhase = true then some .executed else some .accepted] := by
  cases h with
  | carriesOn h => exact h.lifecycle.imp_right fun ⟨hw, hview⟩ => ⟨hw, by simp [hview]⟩
  | ends r h =>
    refine .inr ⟨h.waited, ?_⟩
    rw [h.lifecycle]
    cases r <;> simp [endOf]

theorem lifecycle_gateSuccess (sv : Service) (s : State) :
    lifecycle (gateSuccess sv s) sv = endOf (s.gate.get sv).twoPhase .ok := by
  have hresult : (gateSuccess sv s).out.result.get sv = s.out.result.get sv ++ [.ok] := by simp [gateSuccess_eq]
  rw [lifecycle_of_idle (by simp [gateSuccess_eq]), outcome_concat hresult]
  simp [gateSuccess_eq]

theorem lifecycle_gateTimedOut (sv : Service) (s : State) : lifecycle (gateTimedOut sv s) sv = some .timedOut := by
  have hresult : (gateTimedOut sv s).out.result.get sv = s.out.result.get sv ++ [.fail] := by simp [gateTimedOut_eq]
  rw [lifecycle_of_idle (by simp [gateTimedOut_eq]), outcome_concat hresult, endOf]

/-- Where an `AWAIT` brings the view: to an end, or to the wait that its flags leave (R242, R250). -/
theorem AwaitEffect.lifecycle {n : Nat} {op : Byte} (h : AwaitEffect sv n op s t) :
    lifecycle t sv =
      if (s.tcv.get sv).acceptReceived = true ∧ (op ∈ s.cfg.twoPhase → (s.tcv.get sv).executeReceived = true) then
        (if op ∈ s.cfg.twoPhase then some .executed else some .accepted)
      else if n = 0 then some .timedOut
      else if (s.tcv.get sv).acceptReceived = true then some .awaitingExecute else some .awaitingAccept := by
  cases h with
  | succeeds h =>
    rw [if_pos h, lifecycle_gateSuccess]
    simp [armedCell, endOf, isTwoPhase_iff]
  | fails h hn =>
    rw [if_neg h, if_pos hn, lifecycle_gateTimedOut]
  | waits h hn =>
    rw [if_neg h, if_neg hn.ne']
    split
    · exact lifecycle_of_accepted (by simp) (by assumption) (satisfied_of_not_satisfy n h)
    · exact lifecycle_of_unaccepted (by simp) (Bool.eq_false_of_not_eq_true (by assumption))

end View

/-- Settles O59: a wait that carries on is where it was or awaits the completion, and one that ends is at its end. -/
theorem lifecycleFollowsTheChain : Obligations.LifecycleFollowsTheChain := by
  intro i s t sv h
  obtain ⟨n, op, rfl, hidle, hawait⟩ | ⟨hi, hwait⟩ := exec_gate_cases sv h
  · have hnot {v : Lifecycle} (hv : v = .awaitingAccept ∨ v = .awaitingExecute) : lifecycle s sv ≠ some v := fun h =>
      absurd (hidle.symm.trans (waiting_of_awaiting h hv)) (by decide)
    refine ⟨fun h => absurd h (hnot (.inl rfl)), fun h => absurd h (hnot (.inr rfl)), fun _ hi => absurd rfl (hi n op), ?_⟩
    rintro n' op' ⟨⟩
    exact hawait.lifecycle
  · refine ⟨fun h => ?_, fun h => ?_, fun hidle _ => ?_, fun n op hn => absurd hn (hi n op)⟩
    · obtain hview | ⟨-, hview⟩ := hwait.lifecycle
      · simp [hview, h]
      · exact List.mem_cons_of_mem _ hview
    · obtain hview | ⟨-, hview⟩ := hwait.lifecycle
      · simp [hview, h]
      · simpa [twoPhase_of_awaitingExecute h, or_comm] using hview
    · obtain hview | ⟨hwaits, -⟩ := hwait.lifecycle
      · exact hview
      · exact absurd (hidle.symm.trans hwaits) (by decide)

/-! The bounded wait (R245, R246, R247, R249) -/

theorem execAll_append_of_next {l l' : List Instr} {s t : State} (h : execAll l s = .next t) :
    execAll (l ++ l') s = execAll l' t := by
  induction l generalizing s with
  | nil => cases h; rfl
  | cons i l ih =>
    simp only [List.cons_append, execAll] at h ⊢
    split at h
    · exact ih h
    · cases h
    · cases h

theorem ticks_succ_of_next {k : Nat} {s t : State} (h : ticks k s = .next t) : ticks (k + 1) s = exec .tick t := by
  rw [ticks, List.replicate_succ', execAll_append_of_next h]
  cases h' : exec .tick t <;> simp [execAll, h']

/-- A wait that has counted `k` `TICK`s since `s`, with no result, no report and nothing else that would resolve it. -/
structure CountedTo (sv : Service) (k : Nat) (s t : State) : Prop where
  cfg : t.cfg = s.cfg
  tcv : t.tcv = s.tcv
  cell : t.gate.get sv = { s.gate.get sv with elapsed := (s.gate.get sv).elapsed + k }
  results : t.out.result.get sv = s.out.result.get sv

section Count

variable {sv : Service} {s : State} (hnodup : s.cfg.services.Nodup) (hsv : sv ∈ s.cfg.services)
  (hw : (s.gate.get sv).waiting = true)
include hnodup hsv hw

theorem ticks_countedTo {k : Nat} (hk : (s.gate.get sv).elapsed + k < (s.gate.get sv).timeout) :
    ∃ t, ticks k s = .next t ∧ CountedTo sv k s t := by
  induction k with
  | zero => exact ⟨s, rfl, rfl, rfl, rfl, rfl⟩
  | succ k ih =>
    obtain ⟨t, hticks, hcfg, htcv, hcell, hresults⟩ := ih (by omega)
    obtain ⟨u, htick, -, hcell', hresult⟩ := exec_tick_ticksCells (hcfg ▸ hnodup)
    have hlt : (s.gate.get sv).elapsed + k + 1 < (s.gate.get sv).timeout := by omega
    have hrun : expires (t.gate.get sv) = false := by simpa [expires, hcell, hw] using hlt
    refine ⟨u, (ticks_succ_of_next hticks).trans htick, (exec_touches htick).cfg.trans hcfg,
      (exec_tick_tcv htick).trans htcv, ?_, ?_⟩
    · rw [hcell', hcfg, if_pos hsv, tickedCell_of_waiting (by simp [hcell, hw]), hrun]
      simp [hcell, hw, Nat.add_assoc]
    · simp [hresult, hrun, hresults]

/-- The `TICK` with which the count reaches the timeout ends the wait. -/
theorem ticks_timedOut {k : Nat} (hk : (s.gate.get sv).elapsed + (k + 1) = (s.gate.get sv).timeout) :
    ∃ t, ticks (k + 1) s = .next t ∧ (t.gate.get sv).waiting = false ∧
      t.out.result.get sv = s.out.result.get sv ++ [.fail] ∧ t.tcv = s.tcv := by
  obtain ⟨t, hticks, hcfg, htcv, hcell, hresults⟩ := ticks_countedTo hnodup hsv hw (k := k) (by omega)
  obtain ⟨u, htick, -, hcell', hresult⟩ := exec_tick_ticksCells (hcfg ▸ hnodup)
  have hle : (s.gate.get sv).timeout ≤ (s.gate.get sv).elapsed + k + 1 := by omega
  have hexp : expires (t.gate.get sv) = true := by simpa [expires, hcell, hw] using hle
  refine ⟨u, (ticks_succ_of_next hticks).trans htick, ?_, ?_, (exec_tick_tcv htick).trans htcv⟩
  · rw [hcell', hcfg, if_pos hsv, tickedCell_of_waiting (by simp [hcell, hw])]
    simp [hexp]
  · simp [hresult, hexp, hresults, hcfg, hsv]

end Count

/-- Settles O44: the wait that the `AWAIT` leaves has counted nothing. -/
theorem waitTimesOutAtTheNthTick : Obligations.WaitTimesOutAtTheNthTick := by
  intro sv n op s t hnodup h hwaits
  obtain ⟨hsv, -, -, ht⟩ := execAwait_next h
  cases ht ▸ runAwait_effect sv n op s with
  | succeeds h => exact absurd hwaits (by simp [gateSuccess_eq])
  | fails h hn => exact absurd hwaits (by simp [gateTimedOut_eq])
  | waits h hn =>
    obtain ⟨m, rfl⟩ := Nat.exists_eq_succ_of_ne_zero hn.ne'
    refine ⟨fun k hk => ?_, ticks_timedOut (s := setGate sv _ s) hnodup hsv hwaits (by simp [armedCell])⟩
    obtain ⟨u, hu, -, htcv, hcell, hresults⟩ :=
      ticks_countedTo (s := setGate sv _ s) hnodup hsv hwaits (k := k) (by simpa [armedCell] using hk)
    exact ⟨u, hu, by simp [hcell], by simp [hcell, armedCell], hresults, htcv⟩

end Sys2Proof.Machine

/-! ### The reset and the configuration load (R300, R303) -/

namespace Sys2Proof.Machine

section Boot

variable {s : State} {c : Config} {rest : List InputEvent}

theorem step_reset (h : s.inbox = .reset :: rest) : step s = .next (assertReset { s with inbox := rest }) := by
  simp [step, runNext, h, runEvent]

theorem step_loadConfig (h : s.inbox = .loadConfig c :: rest) : step s = loadConfig c { s with inbox := rest } := by
  simp [step, runNext, h, runEvent]

theorem loadConfig_of_booted (hb : s.booted = true) : loadConfig c s = .refused .configFixed := by
  simp [loadConfig, hb]

theorem loadConfig_of_wf (hb : s.booted = false) (hc : c.wf = true) : loadConfig c s = .next (installConfig c s) := by
  simp [loadConfig, hb, hc]

theorem loadConfig_of_not_wf (hb : s.booted = false) (hc : c.wf = false) :
    loadConfig c s = .refused .configIllFormed := by
  simp [loadConfig, hb, hc]

/-- Once the configuration is fixed, every load is refused (log 12). -/
theorem step_loadConfig_of_booted (h : s.inbox = .loadConfig c :: rest) (hb : s.booted = true) :
    step s = .refused .configFixed :=
  (step_loadConfig h).trans (loadConfig_of_booted hb)

end Boot

/-- The per-service part of R40: whatever `SERVICES` is, every entry reads as its reset value. -/
theorem resetWith_service (c : Config) (sv : Service) :
    (State.resetWith c).tcv.get sv = resetTcv ∧ (State.resetWith c).gate.get sv = resetGate ∧
      (State.resetWith c).out.result.get sv = [] ∧ (State.resetWith c).out.bcast.get sv = [] :=
  ⟨PerService.get_fresh_tcv _ sv, PerService.get_fresh_gate _ sv, PerService.get_fresh_nil _ sv,
    PerService.get_fresh_nil _ sv⟩

/-- The per-instance part of R40. -/
theorem resetWith_session (c : Config) (k : Reasm) :
    (State.resetWith c).rs.get k = resetReasm ∧ (State.resetWith c).out.sink.get k = [] := by
  cases k <;> exact ⟨rfl, rfl⟩

/-- The per-consumer part of R40. -/
theorem resetWith_fwd (c : Config) (d : Consumer) : (State.resetWith c).out.fwd.get d = [] := by
  cases d <;> rfl

/-- Settles O46: the step asserts the reset, and the state it leaves is the reset state under the same configuration, read entry
by entry. -/
theorem resetClearsTheState : Obligations.ResetClearsTheState := by
  intro s rest h
  exact ⟨_, step_reset h, rfl, rfl, rfl, resetWith_service s.cfg, resetWith_session s.cfg, resetWith_fwd s.cfg,
    rfl, rfl, rfl, rfl, rfl⟩

/-- Settles O47: the load follows the three branches of `loadConfig`, and what an accepted one leaves is fixed, so that the next
one takes the branch of a late load. -/
theorem configurationLoadsOnlyAtBoot : Obligations.ConfigurationLoadsOnlyAtBoot := by
  intro s c rest h
  refine ⟨fun hb hc => ?_, step_loadConfig_of_booted h, fun hb hc => ?_⟩
  · have hload : step s = .next (installConfig c { s with inbox := rest }) :=
      (step_loadConfig h).trans (loadConfig_of_wf hb hc)
    exact ⟨_, hload, rfl, rfl, fun _ _ => step_loadConfig_of_booted rfl rfl⟩
  · exact (step_loadConfig h).trans (loadConfig_of_not_wf hb hc)

end Sys2Proof.Machine
